-- ==== Sys2Proof/Word.lean ====
section
/-! DEFINITION. The word types of the SBC (00_scope.md R5, R11) and the segment layout of a glyph mask (10_state.md R23). -/

namespace Sys2Proof

/-- A byte of a frame, and the width of a glyph mask (`MASK_W`, 00_scope.md R5). -/
abbrev Byte := BitVec 8

/-- A buffer word (`WORD_W`, 10_state.md R20). -/
abbrev BufWord := BitVec 16

/-- A host command word (`CMD_W`, 30_encoding.md R60). -/
abbrev CmdWord := BitVec 64

/-- The byte list of one transport write, first byte first (00_scope.md R11, R14). -/
abbrev Frame := List Byte

/-- The LED segments, bit order HGFEDCBA (10_state.md R23). `h` is the decimal point. -/
inductive Segment where
  | a | b | c | d | e | f | g | h
  deriving DecidableEq, Repr

/-- The bit of a glyph mask that lights a segment (10_state.md R23). -/
def Segment.bit : Segment → Nat
  | .a => 0 | .b => 1 | .c => 2 | .d => 3 | .e => 4 | .f => 5 | .g => 6 | .h => 7

/-- Whether a glyph mask lights a segment: a set bit lights it (10_state.md R23). -/
def lights (mask : Byte) (seg : Segment) : Bool := mask.getLsbD seg.bit

/-- The bits of `w` from bit `lo` up, `len` of them: `w[lo+len-1:lo]` (00_scope.md R11). -/
abbrev bitField {n : Nat} (w : BitVec n) (lo len : Nat) : BitVec len := w.extractLsb' lo len

end Sys2Proof
end

