-- ==== Sys2Proof/Config.lean ====
section
/-! DEFINITION. What an instance fixes (00_scope.md R2, R5; 40_glyph_encoder.md R80-R88), and the free values: uninterpreted constants without a body, about which nothing can be proved. -/

namespace Sys2Proof

/-- The two configurations of the SBC (00_scope.md R2). -/
inductive Variant where
  | clock | general
  deriving DecidableEq, Repr, Inhabited

/-- The transport's answer to one write (42_protocol.md R110). -/
inductive Answer where
  | ok | fail
  deriving DecidableEq, Repr, Inhabited

/-- The symbols the spec names (40_glyph_encoder.md R83, R85). -/
inductive Symbol where
  | digit (d : Fin 10) | letterP | letterQ | letterR | letterT
  deriving DecidableEq, Repr

/-- The symbol the spec names at an index of a variant's table: digits at 0-9 (R83), letters at 21 and up
(R85, conflict C2). `none`: the spec names none there (R88). No mask follows from a name (R83, R85). -/
def Variant.knownSymbol (v : Variant) (i : Nat) : Option Symbol :=
  if h : i < 10 then some (.digit ⟨i, h⟩)
  else match v, i with
    | .clock, 21 => some .letterP
    | .clock, 22 => some .letterR
    | .clock, 23 => some .letterT
    | .general, 21 => some .letterP
    | .general, 22 => some .letterQ
    | .general, 23 => some .letterR
    | .general, 24 => some .letterT
    | _, _ => none

/-- The parameters of one SBC instance (00_scope.md R5), fixed for its life (R2). They are carried in State as
constants: log entry 3 (DESIGN CHOICE). -/
structure BlockConfig where
  variant         : Variant
  glyphRomClock   : Vector Byte 28
  glyphRomGeneral : Vector Byte 33
  blankIdxClock   : Fin 28
  blankIdxGeneral : Fin 33
  deriving DecidableEq, Repr

/-- `FLUSH_PREFIX`: the spec's value is none (00_scope.md R5, 42_protocol.md R125, decision D11; log entry 11). -/
def Config.flushPrefix : Frame := []

/-- FREE VALUE (U14): the variant of the instance that leaves reset. -/
opaque Config.variant : Variant

/-- FREE VALUE (U3, U4, U6): the masks of the CLOCK table, the blank glyph's entry apart. -/
opaque Config.clockMask : Fin 28 → Byte

/-- FREE VALUE (U3, U4, U6): the masks of the GENERAL table, the blank glyph's entry apart. -/
opaque Config.generalMask : Fin 33 → Byte

/-- FREE VALUE (U5): which of the 15 indices 10-20, 24-27 is CLOCK's blank glyph (40_glyph_encoder.md R84, R88). -/
opaque Config.clockBlankSlot : Fin 15

/-- FREE VALUE (U5): which of the 19 indices 10-20, 25-32 is GENERAL's blank glyph (40_glyph_encoder.md R84, R88). -/
opaque Config.generalBlankSlot : Fin 19

/-- FREE VALUE (U7): the answer to the `n`-th transport write where State lists no coming answer (log entry 2). -/
opaque Config.transportAnswer : Nat → Answer

/-- `BLANK_IDX_CLOCK`: any one of 10..27 except 21..23 (40_glyph_encoder.md R84, decision D19). -/
def Config.blankIdxClock : Fin 28 :=
  if h : Config.clockBlankSlot.val < 11 then ⟨Config.clockBlankSlot.val + 10, by omega⟩
  else ⟨Config.clockBlankSlot.val + 13, by have := Config.clockBlankSlot.isLt; omega⟩

/-- `BLANK_IDX_GENERAL`: any one of 10..32 except 21..24 (40_glyph_encoder.md R84, decision D19). -/
def Config.blankIdxGeneral : Fin 33 :=
  if h : Config.generalBlankSlot.val < 11 then ⟨Config.generalBlankSlot.val + 10, by omega⟩
  else ⟨Config.generalBlankSlot.val + 14, by have := Config.generalBlankSlot.isLt; omega⟩

/-- `GLYPH_ROM_CLOCK`: free but for the blank glyph's mask, `0x00` (40_glyph_encoder.md R84). -/
def Config.glyphRomClock : Vector Byte 28 :=
  Vector.ofFn fun i => if i = Config.blankIdxClock then 0 else Config.clockMask i

/-- `GLYPH_ROM_GENERAL`: free but for the blank glyph's mask, `0x00` (40_glyph_encoder.md R84). -/
def Config.glyphRomGeneral : Vector Byte 33 :=
  Vector.ofFn fun i => if i = Config.blankIdxGeneral then 0 else Config.generalMask i

/-- The instance that leaves reset: any instance that meets `WellFormedConfig` (70_reset_and_hazards.md R173). -/
def Config.block : BlockConfig where
  variant := Config.variant
  glyphRomClock := Config.glyphRomClock
  glyphRomGeneral := Config.glyphRomGeneral
  blankIdxClock := Config.blankIdxClock
  blankIdxGeneral := Config.blankIdxGeneral

end Sys2Proof
end

