-- ==== Sys2Proof/Syntax.lean ====
section
/-! DEFINITION. The seven commands (30_encoding.md R64), with their operands as the integers the rules read them as (R61, R62), and the names of the reasons a word is reserved (R67). -/

namespace Sys2Proof

/-- One constructor per row of the opcode table. `pos`, `idx`, `value` and `rate` are `uint` of their fields and
`level` is `sint` of its field (30_encoding.md R61, R62). -/
inductive Instr where
  | clear
  | wdig (pos idx : Nat)
  | wraw (pos value : Nat)
  | setup
  | bright (level : Int)
  | blink (rate : Nat)
  | flush
  deriving DecidableEq, Repr

/-- The opcodes in use (30_encoding.md R64). -/
inductive Opcode where
  | clear | wdig | wraw | setup | bright | blink | flush
  deriving DecidableEq, Repr

/-- Why a command word is reserved (30_encoding.md R67). Where a word is reserved for several reasons, decode names
the first of this list that holds (log entry 5). -/
inductive ReservedReason where
  /-- `OP` is `0x00` or in `0x08` to `0xFF`. -/
  | opcode
  /-- `RSV1` (bits 55:48) is not zero. -/
  | rsv1
  /-- `RSV2` (bits 39:32) is not zero. -/
  | rsv2
  /-- The command does not use `POS` and it is not zero. -/
  | unusedPos
  /-- The command does not use `ARG` and it is not zero. -/
  | unusedArg
  deriving DecidableEq, Repr

end Sys2Proof
end

