-- ==== Sys2Proof/WellFormed.lean ====
section
/-! DEFINITION. Well-formed instructions (the operand ranges of the assembler, 30_encoding.md R73) and well-formed instance parameters (`WellFormedConfig`, 70_reset_and_hazards.md R173). -/

namespace Sys2Proof

/-- Every operand fits its field (30_encoding.md R73). An operand that fits but is out of the SBC's range is
well formed: its command defines what it does. -/
def Instr.wf : Instr → Bool
  | .clear => true
  | .wdig pos idx => decide (pos < 2 ^ 8) && decide (idx < 2 ^ 32)
  | .wraw pos value => decide (pos < 2 ^ 8) && decide (value < 2 ^ 32)
  | .setup => true
  | .bright level => decide (-2 ^ 31 ≤ level) && decide (level < 2 ^ 31)
  | .blink rate => decide (rate < 2 ^ 32)
  | .flush => true

/-- The blank glyph may stand at an index that names no digit and no letter (40_glyph_encoder.md R84), and its
mask lights no segment. -/
def blankGlyphOk (v : Variant) (idx : Nat) (mask : Byte) : Bool :=
  (v.knownSymbol idx).isNone && mask == 0

/-- `WellFormedConfig` (70_reset_and_hazards.md R173): the ROM and the blank index of the instance's variant meet
40_glyph_encoder.md R83 to R87. No rule constrains any other mask. -/
def BlockConfig.wf (c : BlockConfig) : Bool :=
  match c.variant with
  | .clock => blankGlyphOk .clock c.blankIdxClock (c.glyphRomClock.get c.blankIdxClock)
  | .general => blankGlyphOk .general c.blankIdxGeneral (c.glyphRomGeneral.get c.blankIdxGeneral)

end Sys2Proof
end

