-- ==== Sys2Proof/Decode.lean ====
section
/-! DEFINITION. Decoding and encoding the 64-bit command word (30_encoding.md R60-R68, R73). -/

namespace Sys2Proof

/-- `OP`, bits 63:56 (30_encoding.md R60). -/
def opField (w : CmdWord) : Byte := bitField w 56 8

/-- `RSV1`, bits 55:48. -/
def rsv1Field (w : CmdWord) : Byte := bitField w 48 8

/-- `POS`, bits 47:40. -/
def posField (w : CmdWord) : Byte := bitField w 40 8

/-- `RSV2`, bits 39:32. -/
def rsv2Field (w : CmdWord) : Byte := bitField w 32 8

/-- `ARG`, bits 31:0. -/
def argField (w : CmdWord) : BitVec 32 := bitField w 0 32

/-- `pos = uint(cmd[47:40])` (30_encoding.md R61). -/
def posOperand (w : CmdWord) : Nat := (posField w).toNat

/-- `uint(cmd[31:0])`: the reading of WDIG, WRAW and BLINK (30_encoding.md R62). -/
def argUnsigned (w : CmdWord) : Nat := (argField w).toNat

/-- `sint(cmd[31:0])`: the reading of BRIGHT (30_encoding.md R62). -/
def argSigned (w : CmdWord) : Int := (argField w).toInt

/-- The opcode map (30_encoding.md R64). -/
def opcodeOf (b : Byte) : Option Opcode :=
  match b.toNat with
  | 0x01 => some .clear
  | 0x02 => some .wdig
  | 0x03 => some .wraw
  | 0x04 => some .setup
  | 0x05 => some .bright
  | 0x06 => some .blink
  | 0x07 => some .flush
  | _ => none

/-- A command that uses neither `POS` nor `ARG`: both must be zero (30_encoding.md R64). -/
def withoutOperands (w : CmdWord) (i : Instr) : Except ReservedReason Instr :=
  if posField w ≠ 0 then .error .unusedPos
  else if argField w ≠ 0 then .error .unusedArg
  else .ok i

/-- A command that uses `ARG` alone: `POS` must be zero (30_encoding.md R64). -/
def withArgOnly (w : CmdWord) (i : Instr) : Except ReservedReason Instr :=
  if posField w ≠ 0 then .error .unusedPos else .ok i

/-- The operands of a command whose opcode and reserved fields are in order (30_encoding.md R62, R64). -/
def decodeOperands (op : Opcode) (w : CmdWord) : Except ReservedReason Instr :=
  match op with
  | .clear => withoutOperands w .clear
  | .wdig => .ok (.wdig (posOperand w) (argUnsigned w))
  | .wraw => .ok (.wraw (posOperand w) (argUnsigned w))
  | .setup => withoutOperands w .setup
  | .bright => withArgOnly w (.bright (argSigned w))
  | .blink => withArgOnly w (.blink (argUnsigned w))
  | .flush => withoutOperands w .flush

/-- The command a word encodes, or the reason it is reserved (30_encoding.md R64, R66, R67). Total on all words. -/
def decode (w : CmdWord) : Except ReservedReason Instr :=
  match opcodeOf (opField w) with
  | none => .error .opcode
  | some op =>
    if rsv1Field w ≠ 0 then .error .rsv1
    else if rsv2Field w ≠ 0 then .error .rsv2
    else decodeOperands op w

/-- The opcode of a command (30_encoding.md R64). -/
def Instr.opcode : Instr → Opcode
  | .clear => .clear
  | .wdig _ _ => .wdig
  | .wraw _ _ => .wraw
  | .setup => .setup
  | .bright _ => .bright
  | .blink _ => .blink
  | .flush => .flush

/-- The opcode's number (30_encoding.md R64). -/
def Opcode.code : Opcode → Byte
  | .clear => 0x01
  | .wdig => 0x02
  | .wraw => 0x03
  | .setup => 0x04
  | .bright => 0x05
  | .blink => 0x06
  | .flush => 0x07

/-- `(OP << 56) | (POS << 40) | ARG` with both reserved fields zero (30_encoding.md R60, R73). -/
def assemble (op : Opcode) (pos : Byte) (arg : BitVec 32) : CmdWord :=
  (op.code.setWidth 64 <<< 56) ||| (pos.setWidth 64 <<< 40) ||| arg.setWidth 64

/-- The word of a command (30_encoding.md R73). The operands of a well-formed command fit their fields. -/
def encode : Instr → CmdWord
  | .clear => assemble .clear 0 0
  | .wdig pos idx => assemble .wdig (BitVec.ofNat 8 pos) (BitVec.ofNat 32 idx)
  | .wraw pos value => assemble .wraw (BitVec.ofNat 8 pos) (BitVec.ofNat 32 value)
  | .setup => assemble .setup 0 0
  | .bright level => assemble .bright 0 (BitVec.ofInt 32 level)
  | .blink rate => assemble .blink 0 (BitVec.ofNat 32 rate)
  | .flush => assemble .flush 0 0

/-- A row of the opcode map: the bits a word must have under the mask (30_encoding.md R64). -/
structure OpcodeRow where
  op        : Opcode
  matchBits : CmdWord
  maskBits  : CmdWord
  deriving DecidableEq, Repr

/-- The match and mask columns of the opcode map (30_encoding.md R64; spec/opcode_table.json). -/
def opcodeRows : List OpcodeRow :=
  [ ⟨.clear,  0x0100000000000000, 0xFFFFFFFFFFFFFFFF⟩,
    ⟨.wdig,   0x0200000000000000, 0xFFFF00FF00000000⟩,
    ⟨.wraw,   0x0300000000000000, 0xFFFF00FF00000000⟩,
    ⟨.setup,  0x0400000000000000, 0xFFFFFFFFFFFFFFFF⟩,
    ⟨.bright, 0x0500000000000000, 0xFFFFFFFF00000000⟩,
    ⟨.blink,  0x0600000000000000, 0xFFFFFFFF00000000⟩,
    ⟨.flush,  0x0700000000000000, 0xFFFFFFFFFFFFFFFF⟩ ]

/-- `(cmd & mask) == match` (30_encoding.md R64). -/
def rowMatches (r : OpcodeRow) (w : CmdWord) : Bool := w &&& r.maskBits == r.matchBits

/-- The command word whose bits are the low `nbits` bits of `w`, every bit above them 0. A command is one 64-bit
word presented whole, without a byte order (30_encoding.md R75), so its bits are numbered as the table numbers them. -/
def tableWord (nbits w : Nat) : CmdWord := BitVec.ofNat 64 (w % 2 ^ nbits)

/-- What `decode` reads from the instruction with those bits; none where it refuses, and none for a number that
does not fit the one 64-bit format (log entry 15). -/
def decodeTableWord (nbits w : Nat) : Option Instr :=
  if w % 2 ^ nbits < 2 ^ 64 then (decode (tableWord nbits w)).toOption else none

end Sys2Proof
end

