-- ==== Sys2Proof/Machine/State.lean ====
section
/-! DEFINITION. The state of the SBC (10_state.md), the inputs of the world outside it, the reasons a step stops, and the state after reset (10_state.md R35). -/

namespace Sys2Proof.Machine

open Sys2Proof

/-- The four values of the 2-bit STATUS register (10_state.md R26); `Status.bits` gives their code. -/
inductive Status where
  /-- No command that writes STATUS has run since reset. -/
  | none
  /-- The last such command's transport writes all answered `ok`. -/
  | ok
  /-- The last such command had a transport write answer `fail` (steady-state failure). -/
  | xferFail
  /-- The last such command was SETUP and its oscillator-on write answered `fail`. -/
  | initFail
  deriving DecidableEq, Repr

/-- One entry of TXLOG: a frame and the transport's answer (10_state.md R31). -/
structure TxRecord where
  frame  : Frame
  answer : Answer
  deriving DecidableEq, Repr

/-- What the host does at one of the SBC's ports, between two commands (00_scope.md R9, 70_reset_and_hazards.md
R161). Reading BUF and STATUS changes nothing and is no input: see `observation`. -/
inductive HostInput where
  /-- The host presents a command word at the command port. -/
  | command (w : CmdWord)
  /-- The host asserts reset between two commands. -/
  | reset
  /-- The host queries the combinational lookup port `encode` at an index (40_glyph_encoder.md R82). -/
  | lookup (i : Nat)
  deriving DecidableEq, Repr

/-- The machine. `buf`, `status` and `txlog` are the spec's state (10_state.md R20, R26, R31); `config` holds the
instance's parameters, which no step writes (00_scope.md R2, log entry 3); `host`, `answers` and `draws` are the
model's own fields for the inputs from outside (log entries 1 and 2). -/
structure State where
  /-- The segment buffer BUF, position 0 first. -/
  buf     : Vector BufWord 8
  /-- The STATUS register. -/
  status  : Status
  /-- TXLOG, oldest write first. -/
  txlog   : List TxRecord
  /-- The parameters of this instance. -/
  config  : BlockConfig
  /-- What the host is going to do, next first. -/
  host    : List HostInput
  /-- What the transport is going to answer, next first. Where the list is empty the answer is `Config.transportAnswer`. -/
  answers : List Answer
  /-- How many transport writes have been issued: the index of the next free answer. -/
  draws   : Nat
  deriving DecidableEq, Repr

/-- Why a step stops with a fault. -/
inductive Fault where
  /-- Raised by a lookup-port query `encode(i)` with `i >= N`, which has no defined output: "It faults the query
  instead" (40_glyph_encoder.md R82, U2). Safe: the spec calls it erring toward unprovable. No later reset takes it back:
log entry 18 (DESIGN CHOICE). -/
  | lookupOutOfRange (i : Nat)
  deriving DecidableEq, Repr

/-- Why a step is refused. -/
inductive Refusal where
  /-- Raised by exec's arm for an instruction without a meaning. No arm does. Safe. -/
  | notModelled (mnemonic : String)
  /-- Raised by step for a reserved command word: "A model must refuse a reserved command word" (30_encoding.md R68,
  U1). Safe: the spec calls it erring toward unprovable. No later reset takes it back: log entry 18 (DESIGN CHOICE). -/
  | reservedWord (why : ReservedReason)
  deriving DecidableEq, Repr

/-- The state at power-on (10_state.md R35, 70_reset_and_hazards.md R160): BUF zero, STATUS NONE, TXLOG empty, no
frame sent, SETUP not run. The instance is any well-formed one; the host has presented nothing and nothing is known
of the transport (log entries 1, 2, 3: DESIGN CHOICE). -/
def State.reset : State where
  buf := Vector.replicate 8 0
  status := .none
  txlog := []
  config := Config.block
  host := []
  answers := []
  draws := 0

end Sys2Proof.Machine
end

