-- ==== Sys2Proof/Machine/Flags.lean ====
section
/-! DEFINITION. STATUS, the SBC's only flag-like state: its 2-bit code and how an answer becomes a report (10_state.md R26; 42_protocol.md R119, R123, R126). -/

namespace Sys2Proof.Machine

open Sys2Proof

/-- The 2-bit code of STATUS (10_state.md R26). -/
def Status.bits : Status → BitVec 2
  | .none => 0b00
  | .ok => 0b01
  | .xferFail => 0b10
  | .initFail => 0b11

/-- STATUS from its 2-bit code: all four values are legal (10_state.md R26). -/
def Status.ofBits (b : BitVec 2) : Status :=
  match b.toNat with
  | 0 => .none
  | 1 => .ok
  | 2 => .xferFail
  | _ => .initFail

/-- The report of a steady-state write (42_protocol.md R119, R123, R126; 60_exceptions.md R142). -/
def transferStatus : Answer → Status
  | .ok => .ok
  | .fail => .xferFail

end Sys2Proof.Machine
end

