-- ==== Sys2Proof/Machine/Glyph.lean ====
section
/-! DEFINITION. The glyph ROM encoder (40_glyph_encoder.md R80-R82). -/

namespace Sys2Proof.Machine

open Sys2Proof

/-- `N`: the entries of a variant's table (40_glyph_encoder.md R80). -/
def glyphCount : Variant → Nat
  | .clock => 28
  | .general => 33

/-- `ROM(i)` of the configured variant for `i < N`, and nothing for `i >= N` (40_glyph_encoder.md R81, R82). The
two tables are never merged (R86). -/
def encodeGlyph (c : BlockConfig) (i : Nat) : Option Byte :=
  match c.variant with
  | .clock => c.glyphRomClock[i]?
  | .general => c.glyphRomGeneral[i]?

/-- The index of the blank glyph of the configured variant (40_glyph_encoder.md R84). -/
def blankIdx (c : BlockConfig) : Nat :=
  match c.variant with
  | .clock => c.blankIdxClock
  | .general => c.blankIdxGeneral

/-- The combinational lookup port: the mask for `i < N`; a query out of range faults and has no value
(40_glyph_encoder.md R82, U2). -/
def lookupPort (c : BlockConfig) (i : Nat) : Except Fault Byte :=
  match encodeGlyph c i with
  | some mask => .ok mask
  | none => .error (.lookupOutOfRange i)

end Sys2Proof.Machine
end

