-- ==== Sys2Proof/Machine/Operands.lean ====
section
/-! DEFINITION. The operand checks, clamps and defaults of the commands (41_buffer.md R92, R97, R98; 42_protocol.md R117, R121) and the bytes of the command frames (30_encoding.md R69). -/

namespace Sys2Proof.Machine

open Sys2Proof

/-- A position a command may write: 0 to 4. Any other position reaches nothing (20_memory.md R41, 41_buffer.md R92,
R97). -/
def writablePos (pos : Nat) : Option (Fin 8) :=
  if h : pos ≤ 4 then some ⟨pos, by omega⟩ else none

/-- A raw value that fits 16 bits, as the word stored; a larger one is none (41_buffer.md R98). -/
def rawWord (value : Nat) : Option BufWord :=
  if value > 0xFFFF then none else some (BitVec.ofNat 16 value)

/-- A glyph mask as a buffer word: `zext_16` (10_state.md R22, 20_memory.md R50). -/
def glyphWord (mask : Byte) : BufWord := mask.setWidth 16

/-- The level BRIGHT sends: clamped to 0..15 (42_protocol.md R117). -/
def clampLevel (level : Int) : Nat :=
  if level < 0 then 0 else if level > 15 then 15 else level.toNat

/-- The blink field BLINK sends: a rate outside 0..3 becomes 0, not 3 (42_protocol.md R121, conflict C5). -/
def blinkField (rate : Nat) : Nat := if rate ≤ 3 then rate else 0

/-- The oscillator-on byte (42_protocol.md R113). -/
def oscillatorByte : Byte := 0x21

/-- `0xE0 | L` (42_protocol.md R118). -/
def brightByte (l : Nat) : Byte := 0xE0 ||| BitVec.ofNat 8 l

/-- `0x80 | 0x01 | (r << 1)` (42_protocol.md R122). -/
def blinkByte (r : Nat) : Byte := 0x80 ||| 0x01 ||| (BitVec.ofNat 8 r <<< 1)

end Sys2Proof.Machine
end

