-- ==== Sys2Proof/Machine/Ops.lean ====
section
/-! DEFINITION. The named operations over BUF, STATUS, TXLOG and the ports (00_scope.md R12). The SBC takes no exception and returns from none (60_exceptions.md R140, R145, R146), so there is no such operation here: a failed write becomes a STATUS report by `sendAndReport`. -/

namespace Sys2Proof.Machine

open Sys2Proof

/-- `BUF[p]` (00_scope.md R12). -/
def readBuf (s : State) (p : Fin 8) : BufWord := s.buf.get p

/-- `BUF[p] <- v`: a whole word (00_scope.md R12, 20_memory.md R50). -/
def writeBuf (p : Fin 8) (v : BufWord) (s : State) : State :=
  { s with buf := s.buf.set p v }

/-- All eight words zero, positions 5 to 7 too (41_buffer.md R90). -/
def zeroBuf (s : State) : State := { s with buf := Vector.replicate 8 0 }

/-- `STATUS <- v` (00_scope.md R12). -/
def setStatus (v : Status) (s : State) : State := { s with status := v }

/-- The two bytes of a word, most significant first (20_memory.md R45). -/
def wordBytes (v : BufWord) : List Byte := [bitField v 8 8, bitField v 0 8]

/-- The 16-byte big-endian image of the buffer, word 0 first (20_memory.md R46). -/
def serialize (buf : Vector BufWord 8) : Frame := buf.toList.flatMap wordBytes

/-- The word two bytes stand for: `(hi << 8) | lo` (20_memory.md R47). -/
def joinBytes (hi lo : Byte) : BufWord := (hi.setWidth 16 <<< 8) ||| lo.setWidth 16

/-- The words a byte list stands for, two bytes a word (20_memory.md R47). -/
def deserialize : Frame → List BufWord
  | hi :: lo :: rest => joinBytes hi lo :: deserialize rest
  | _ => []

/-- `dataframe(BUF) := FLUSH_PREFIX ++ serialize(BUF)` (42_protocol.md R125). -/
def dataframe (buf : Vector BufWord 8) : Frame := Config.flushPrefix ++ serialize buf

/-- The transport's answer to the next write: the next coming answer, and a free value where none is listed
(42_protocol.md R110, U7; log entry 2). -/
def txAnswer (s : State) : Answer :=
  match s.answers with
  | a :: _ => a
  | [] => Config.transportAnswer s.draws

/-- `TxWrite(frame)`: one transport write, logged with its answer; the answer, and the state after it
(42_protocol.md R110). -/
def txWrite (frame : Frame) (s : State) : Answer × State :=
  (txAnswer s,
    { s with
      txlog := s.txlog ++ [⟨frame, txAnswer s⟩]
      answers := s.answers.tail
      draws := s.draws + 1 })

/-- One steady-state write, its answer reported in STATUS: `OK` or `XFER_FAIL` (42_protocol.md R119, R123, R126). -/
def sendAndReport (frame : Frame) (s : State) : State :=
  setStatus (transferStatus (txWrite frame s).1) (txWrite frame s).2

/-- Host reset between two commands: BUF, STATUS and TXLOG at their reset values, no frame sent, SETUP not run, the
parameters unchanged (70_reset_and_hazards.md R160-R162). What the host and the transport are going to do is not
SBC state and is kept (log entry 7). A reset that stands behind a refused word or a faulting query is never reached
(log entry 18). -/
def hostReset (s : State) : State :=
  { s with
    buf := State.reset.buf
    status := State.reset.status
    txlog := State.reset.txlog }

/-- The inputs left once the first is taken. -/
def setHost (inputs : List HostInput) (s : State) : State := { s with host := inputs }

/-- The host presents a command word next (00_scope.md R9). -/
def presentCommand (w : CmdWord) (s : State) : State := setHost (.command w :: s.host) s

/-- A query at the lookup port: it has no side effect where it has a value, and faults where it has none
(40_glyph_encoder.md R81, R82; log entry 17). -/
def lookupQuery (i : Nat) (s : State) : Host.Outcome State Fault Refusal :=
  match lookupPort s.config i with
  | .ok _ => .next s
  | .error f => .fault f

/-- No input: "No event outside a command changes its state" (60_exceptions.md R147; log entry 6). -/
def idle (s : State) : Host.Outcome State Fault Refusal := .next s

/-- What can be observed of a run: BUF, STATUS and TXLOG (00_scope.md R10). -/
def observation (s : State) : Vector BufWord 8 × Status × List TxRecord := (s.buf, s.status, s.txlog)

/-- STATUS as the host reads it (00_scope.md R9, 10_state.md R26). -/
def statusPort (s : State) : BitVec 2 := s.status.bits

/-- `serialize` at the observation port (20_memory.md R46). -/
def serializePort (s : State) : Frame := serialize s.buf

end Sys2Proof.Machine
end

