-- ==== Sys2Proof/Machine/Buffer.lean ====
section
/-! DEFINITION. The buffer commands CLEAR, WDIG and WRAW (41_buffer.md). A drop leaves the whole state as it was. -/

namespace Sys2Proof.Machine

open Sys2Proof

/-- The word WDIG stores: in the CLOCK variant position 2 takes the index itself; every other position, and
position 2 of GENERAL, takes the glyph (41_buffer.md R91, R94, R95). -/
def digitWord (v : Variant) (p : Fin 8) (idx : Nat) (mask : Byte) : BufWord :=
  if v = .clock ∧ p = 2 then BitVec.ofNat 16 idx else glyphWord mask

/-- WDIG's effect: drop unless the position is writable and the index is in the table (41_buffer.md R91-R93). -/
def writeDigit (pos idx : Nat) (s : State) : State :=
  match writablePos pos, encodeGlyph s.config idx with
  | some p, some mask => writeBuf p (digitWord s.config.variant p idx mask) s
  | _, _ => s

/-- WRAW's effect: drop unless the position is writable and the value fits 16 bits (41_buffer.md R96-R98). -/
def writeRaw (pos value : Nat) (s : State) : State :=
  match writablePos pos, rawWord value with
  | some p, some v => writeBuf p v s
  | _, _ => s

/-- CLEAR (41_buffer.md R90). -/
def execClear (s : State) : Host.Outcome State Fault Refusal := .next (zeroBuf s)

/-- WDIG (41_buffer.md R91-R95). -/
def execWdig (pos idx : Nat) (s : State) : Host.Outcome State Fault Refusal := .next (writeDigit pos idx s)

/-- WRAW (41_buffer.md R96-R99). -/
def execWraw (pos value : Nat) (s : State) : Host.Outcome State Fault Refusal := .next (writeRaw pos value s)

end Sys2Proof.Machine
end

