-- ==== Sys2Proof/Machine/Protocol.lean ====
section
/-! DEFINITION. The protocol commands SETUP, BRIGHT, BLINK and FLUSH (42_protocol.md). None changes BUF; each writes STATUS. -/

namespace Sys2Proof.Machine

open Sys2Proof

/-- SETUP after its oscillator-on write: on `fail`, `INIT_FAIL` and no flush; on `ok`, the flush, reported as a
steady-state write (42_protocol.md R112, R114, R115). -/
def setupRest (a : Answer) (s : State) : State :=
  match a with
  | .fail => setStatus .initFail s
  | .ok => sendAndReport (dataframe s.buf) s

/-- SETUP (42_protocol.md R112-R115). -/
def execSetup (s : State) : Host.Outcome State Fault Refusal :=
  .next (setupRest (txWrite [oscillatorByte] s).1 (txWrite [oscillatorByte] s).2)

/-- BRIGHT (42_protocol.md R116-R119). -/
def execBright (level : Int) (s : State) : Host.Outcome State Fault Refusal :=
  .next (sendAndReport [brightByte (clampLevel level)] s)

/-- BLINK (42_protocol.md R120-R123). -/
def execBlink (rate : Nat) (s : State) : Host.Outcome State Fault Refusal :=
  .next (sendAndReport [blinkByte (blinkField rate)] s)

/-- FLUSH (42_protocol.md R124-R126). -/
def execFlush (s : State) : Host.Outcome State Fault Refusal := .next (sendAndReport (dataframe s.buf) s)

end Sys2Proof.Machine
end

