-- ==== Sys2Proof/Machine/Dispatch.lean ====
section
/-! DEFINITION. One arm per command: exec is the meaning of each (30_encoding.md R64). -/

namespace Sys2Proof.Machine

open Sys2Proof

/-- The meaning of each command. -/
def exec (i : Instr) (s : State) : Host.Outcome State Fault Refusal :=
  match i with
  | .clear => Sys2Proof.Machine.execClear s
  | .wdig pos idx => Sys2Proof.Machine.execWdig pos idx s
  | .wraw pos value => Sys2Proof.Machine.execWraw pos value s
  | .setup => Sys2Proof.Machine.execSetup s
  | .bright level => Sys2Proof.Machine.execBright level s
  | .blink rate => Sys2Proof.Machine.execBlink rate s
  | .flush => Sys2Proof.Machine.execFlush s

end Sys2Proof.Machine
end

