-- ==== Sys2Proof/Machine/Step.lean ====
section
/-! DEFINITION. One step: the SBC takes the host's next input and completes it (00_scope.md R7, R8). -/

namespace Sys2Proof.Machine

open Sys2Proof

/-- One step. A command word is decoded before any effect (30_encoding.md R66) and then executed whole; a reserved
word is refused (R68); a reset and a lookup query take place between commands; with no input nothing changes.
DESIGN CHOICE (log entry 18): a refusal or a lookup fault is kept past a later reset in the host's inputs, which is
never taken. The spec keeps it "for the rest of the run" (R68) and leaves open whether a reset ends that run
(70_reset_and_hazards.md R162, R163, R172). -/
def step (s : State) : Host.Outcome State Fault Refusal :=
  match s.host with
  | [] => idle s
  | .command w :: rest =>
    match decode w with
    | .ok i => exec i (setHost rest s)
    | .error why => .refused (.reservedWord why)
  | .reset :: rest => .next (hostReset (setHost rest s))
  | .lookup i :: rest => lookupQuery i (setHost rest s)

/-- The state in which the host presents that word next (log entry 1): the SBC has no instruction memory
(10_state.md R33), so a command comes to run by being presented. -/
def State.withFetchWord (s : State) (nbits w : Nat) : State := presentCommand (tableWord nbits w) s

end Sys2Proof.Machine
end

