-- ==== Sys2Proof/Safety.lean ====
section
/-! DEFINITION. The terms claims are stated in: what a command leaves alone, what it sends, which frames are legal, what STATUS reports of TXLOG, the launch premises of 70_reset_and_hazards.md R173, and the invariant of the SBC. -/

namespace Sys2Proof.Machine

open Sys2Proof

/-- The three commands that change BUF and nothing else (41_buffer.md R100). -/
def isBufferCommand : Instr → Bool
  | .clear => true
  | .wdig _ _ => true
  | .wraw _ _ => true
  | .setup => false
  | .bright _ => false
  | .blink _ => false
  | .flush => false

/-- From `s` to `t` everything but BUF is unchanged: STATUS, TXLOG, the parameters and the inputs from outside
(`host`, `answers`, `draws`, the model's own fields: no input is taken, so no transport write is issued). -/
structure OnlyBufDiffers (s t : State) : Prop where
  status  : t.status = s.status
  txlog   : t.txlog = s.txlog
  config  : t.config = s.config
  host    : t.host = s.host
  answers : t.answers = s.answers
  draws   : t.draws = s.draws

/-- From `s` to `t` the writes `new` were issued, in order, each taking one answer; BUF, the parameters and the
host's inputs are unchanged. It says nothing of STATUS. `answers` and `draws` are the model's own fields (log entry 2). -/
structure Sent (s t : State) (new : List TxRecord) : Prop where
  txlog   : t.txlog = s.txlog ++ new
  answers : t.answers = s.answers.drop new.length
  draws   : t.draws = s.draws + new.length
  buf     : t.buf = s.buf
  config  : t.config = s.config
  host    : t.host = s.host

/-- Positions 5, 6 and 7 hold zero (10_state.md R25). -/
def UnusedZero (s : State) : Prop := ∀ p : Fin 8, 5 ≤ p.val → readBuf s p = 0

/-- Every digit position (0, 1, 3, 4) holds zero or an entry of the instance's table, zero-extended (10_state.md R24). -/
def DigitsHoldGlyphs (s : State) : Prop :=
  ∀ p : Fin 8, p.val ≤ 4 → p ≠ 2 →
    readBuf s p = 0 ∨ ∃ i mask, encodeGlyph s.config i = some mask ∧ readBuf s p = glyphWord mask

/-- The host's next input is no WRAW to a digit position: it uses WRAW for the separator alone (10_state.md R24). -/
def WrawForSeparatorOnly (s : State) : Prop :=
  ∀ w rest pos value, s.host = .command w :: rest → decode w = .ok (.wraw pos value) → pos = 2

/-- The command bytes the SBC may send (30_encoding.md R69, 60_exceptions.md R150). -/
def legalCommandBytes : List Byte :=
  [ 0x21,
    0xE0, 0xE1, 0xE2, 0xE3, 0xE4, 0xE5, 0xE6, 0xE7, 0xE8, 0xE9, 0xEA, 0xEB, 0xEC, 0xED, 0xEE, 0xEF,
    0x81, 0x83, 0x85, 0x87 ]

/-- A frame the SBC may send: one legal command byte, or a 16-byte data frame, whose bytes 10 to 15 (positions 5 to
7) are zero (30_encoding.md R69, R70; 10_state.md R25). -/
def legalFrame (f : Frame) : Bool :=
  match f with
  | [b] => legalCommandBytes.contains b
  | _ => f.length == 16 && f.drop 10 == List.replicate 6 0

/-- What STATUS says of a log: `NONE` if nothing was sent since reset, else the last write's answer, a failed
oscillator-on write apart (10_state.md R26). -/
def logStatus (log : List TxRecord) : Status :=
  match log.getLast? with
  | none => .none
  | some r =>
    match r.answer with
    | .ok => .ok
    | .fail => if r.frame = [oscillatorByte] then .initFail else .xferFail

/-- The invariant of the SBC: positions 5-7 are zero, STATUS reports TXLOG, every frame ever sent is legal, and the
parameters are well formed. -/
structure Inv (s : State) : Prop where
  unused  : UnusedZero s
  reports : s.status = logStatus s.txlog
  frames  : ∀ r ∈ s.txlog, legalFrame r.frame = true
  config  : s.config.wf = true

/-- An input that keeps the host's duties: a word that decodes, a reset, or a lookup in range
(`HostDuties` and `NoRefusal`, 70_reset_and_hazards.md R173). -/
def inputOk (c : BlockConfig) : HostInput → Bool
  | .command w => (decode w).isOk
  | .reset => true
  | .lookup i => (encodeGlyph c i).isSome

/-- The host keeps its duties in everything it is going to do (60_exceptions.md R155, 70_reset_and_hazards.md R173). -/
def hostDuties (s : State) : Bool := s.host.all (inputOk s.config)

end Sys2Proof.Machine
end

