-- ==== Sys2Proof/Certificates/Slice0/Obligations.lean ====
section
/-! DEFINITION. The statements for the provers, from the numbered rules of spec/. `Sys2Proof.Machine.txAnswer s` is the transport's answer to the next write from `s`; nothing constrains it, so a statement that names it holds for every answer (42_protocol.md R110). -/

open Sys2Proof Sys2Proof.Machine

/-! ### Decoding and encoding -/

/-- 30_encoding.md R60-R64, R73: every well-formed command survives encoding and decoding, with every operand. -/
def Obligations.DecodeOfEncodeIsTheCommand : Prop :=
  ∀ i : Instr, i.wf = true → decode (encode i) = .ok i

/-- 30_encoding.md R60-R64: each word has at most one meaning, and decoding drops no bit of it; what it gives is
well formed. -/
def Obligations.DecodedWordIsTheCommandsEncoding : Prop :=
  ∀ (w : CmdWord) (i : Instr), decode w = .ok i → encode i = w ∧ i.wf = true

/-- 30_encoding.md R64: a word decodes as a command iff it has the bits of that command's row, and at most one row
matches. -/
def Obligations.DecodeIffOpcodeRowMatches : Prop :=
  (∀ (w : CmdWord) (op : Opcode),
    (∃ i, decode w = .ok i ∧ i.opcode = op) ↔ ∃ r ∈ opcodeRows, r.op = op ∧ rowMatches r w = true) ∧
  (∀ (w : CmdWord), ∀ r ∈ opcodeRows, ∀ r' ∈ opcodeRows,
    rowMatches r w = true → rowMatches r' w = true → r = r')

/-- 30_encoding.md R67, R68: exactly the reserved words are refused, and the refusal is kept for the rest of the
run. That a reset later in the host's inputs does not end that run is the model's choice (log entry 18). -/
def Obligations.ReservedWordsAreRefusedForEver : Prop :=
  ∀ (s : State) (w : CmdWord) (rest : List HostInput), s.host = .command w :: rest →
    (((opField w = 0 ∨ 8 ≤ (opField w).toNat) ∨
      rsv1Field w ≠ 0 ∨ rsv2Field w ≠ 0 ∨
      ((opField w = 0x01 ∨ opField w = 0x04 ∨ opField w = 0x07) ∧ (posField w ≠ 0 ∨ argField w ≠ 0)) ∨
      ((opField w = 0x05 ∨ opField w = 0x06) ∧ posField w ≠ 0)) ↔
     ∃ why, ∀ n, core.run (n + 1) s = .refused (.reservedWord why))

/-- 30_encoding.md R60-R67 on words written out from the encoding (95_test_vectors.md section 2.1). -/
def Obligations.SampleWordsDecodeAsTheSpecSays : Prop :=
  decode 0x0100000000000000 = .ok .clear ∧
  decode 0x0200010000000009 = .ok (.wdig 1 9) ∧
  decode 0x0200FF00FFFFFFFF = .ok (.wdig 255 0xFFFFFFFF) ∧
  decode 0x0300020000000002 = .ok (.wraw 2 2) ∧
  decode 0x0400000000000000 = .ok .setup ∧
  decode 0x05000000FFFFFFFF = .ok (.bright (-1)) ∧
  decode 0x0600000000000002 = .ok (.blink 2) ∧
  decode 0x0700000000000000 = .ok .flush ∧
  decode 0x0000000000000000 = .error .opcode ∧
  decode 0x0500010000000007 = .error .unusedPos

/-! ### The step, reset and the ports -/

/-- 30_encoding.md R66, 00_scope.md R8: when the word the host presents decodes to `i`, the step is `exec` of `i`
with the word taken from the host's inputs and nothing else changed. -/
def Obligations.StepRunsThePresentedCommand : Prop :=
  ∀ (s : State) (w : CmdWord) (rest : List HostInput) (i : Instr),
    s.host = .command w :: rest → decode w = .ok i → step s = exec i { s with host := rest }

/-- 60_exceptions.md R147: with no input from the host nothing changes. That such a step answers a next state is the
model's choice (log entry 6). -/
def Obligations.NothingHappensWithoutAHostInput : Prop :=
  ∀ s : State, s.host = [] → step s = .next s

/-- 70_reset_and_hazards.md R160, R161: reset between two commands. It sends no frame, keeps the parameters, and every
command is accepted after it. That it keeps the further inputs from outside is the model's choice (log entry 7). -/
def Obligations.HostResetRestoresTheResetValues : Prop :=
  ∀ (s : State) (rest : List HostInput), s.host = .reset :: rest →
    ∃ t, step s = .next t ∧
      (∀ p, readBuf t p = 0) ∧ t.status = .none ∧ t.txlog = [] ∧
      t.config = s.config ∧ t.host = rest ∧ t.answers = s.answers ∧ t.draws = s.draws ∧
      ∀ i, ∃ u, exec i t = .next u

/-- 10_state.md R35: the reset values, and the glyph ROM unchanged by reset. -/
def Obligations.ResetLeavesTheSpecsValues : Prop :=
  (∀ p, readBuf State.reset p = 0) ∧ statusPort State.reset = 0b00 ∧ State.reset.txlog = [] ∧
  (∀ s : State, (hostReset s).config = s.config ∧ (hostReset s).draws = s.draws ∧
    (∀ p, readBuf (hostReset s) p = 0) ∧ statusPort (hostReset s) = 0b00 ∧ (hostReset s).txlog = [])

/-- The invariant holds at reset (10_state.md R25, R26, R35; 40_glyph_encoder.md R84). That reset leaves well-formed
parameters rests on the model's choice of them (log entries 3 and 4). -/
def Obligations.ResetMeetsTheInvariant : Prop := Inv State.reset

/-- 10_state.md R36: FLUSH directly after reset sends sixteen zero bytes. -/
def Obligations.FlushAfterResetSendsSixteenZeroBytes : Prop :=
  ∃ t a, exec .flush State.reset = .next t ∧ t.txlog = [⟨List.replicate 16 0, a⟩] ∧
    ∀ p, readBuf State.reset p = 0

/-- 40_glyph_encoder.md R81, R82: the lookup port has the ROM's entry and no side effect for an index in range, and
faults out of range; inside the SBC an index out of range never reaches the ROM. That a query is a host input is the
model's choice (log entry 17). -/
def Obligations.LookupPortAnswersInRangeAndFaultsBeyond : Prop :=
  ∀ (s : State) (i : Nat) (rest : List HostInput), s.host = .lookup i :: rest →
    (s.config.variant = .clock →
      (∀ h : i < 28, lookupPort s.config i = .ok (s.config.glyphRomClock.get ⟨i, h⟩) ∧
        step s = .next { s with host := rest }) ∧
      (28 ≤ i → step s = .fault (.lookupOutOfRange i) ∧ ∀ pos, exec (.wdig pos i) s = .next s)) ∧
    (s.config.variant = .general →
      (∀ h : i < 33, lookupPort s.config i = .ok (s.config.glyphRomGeneral.get ⟨i, h⟩) ∧
        step s = .next { s with host := rest }) ∧
      (33 ≤ i → step s = .fault (.lookupOutOfRange i) ∧ ∀ pos, exec (.wdig pos i) s = .next s))

/-- 10_state.md R26: STATUS is 2 bits with these four codes, all legal. -/
def Obligations.StatusCodesAreTheFourOfTheTable : Prop :=
  Status.bits .none = 0b00 ∧ Status.bits .ok = 0b01 ∧ Status.bits .xferFail = 0b10 ∧
  Status.bits .initFail = 0b11 ∧ (∀ b, Status.bits (Status.ofBits b) = b) ∧ ∀ v, Status.ofBits (Status.bits v) = v

/-! ### The buffer commands -/

/-- 41_buffer.md R90: CLEAR's word, and CLEAR: all eight words zero and nothing else changed. -/
def Obligations.ClearZeroesEveryPositionAlone : Prop :=
  decode 0x0100000000000000 = .ok .clear ∧
  ∀ s : State, ∃ t, exec .clear s = .next t ∧ (∀ p, readBuf t p = 0) ∧ OnlyBufDiffers s t

/-- 41_buffer.md R91: WDIG's word and its pseudocode. `N` is 28 or 33 and `encode` is the lookup of R81. -/
def Obligations.WdigFollowsItsPseudocode : Prop :=
  (∀ pos idx : Nat, pos < 2 ^ 8 → idx < 2 ^ 32 →
    decode ((0x02#64 <<< 56) ||| (BitVec.ofNat 64 pos <<< 40) ||| BitVec.ofNat 64 idx) = .ok (.wdig pos idx)) ∧
  ∀ (s : State) (pos idx : Nat),
    (pos > 4 → exec (.wdig pos idx) s = .next s) ∧
    ((if s.config.variant = .clock then 28 else 33) ≤ idx → exec (.wdig pos idx) s = .next s) ∧
    (pos ≤ 4 → idx < (if s.config.variant = .clock then 28 else 33) →
      ∃ t, exec (.wdig pos idx) s = .next t ∧
        (∀ p : Fin 8, p.val = pos →
          if s.config.variant = .clock ∧ pos = 2 then readBuf t p = BitVec.ofNat 16 idx
          else ∃ mask, encodeGlyph s.config idx = some mask ∧ readBuf t p = mask.setWidth 16) ∧
        (∀ p : Fin 8, p.val ≠ pos → readBuf t p = readBuf s p) ∧ OnlyBufDiffers s t)

/-- 41_buffer.md R92: a position above 4 is a silent no-op, and WDIG never writes positions 5, 6 or 7. -/
def Obligations.WdigBeyondPositionFourIsANoOp : Prop :=
  ∀ (s : State) (pos idx : Nat),
    (pos > 4 → exec (.wdig pos idx) s = .next s) ∧
    ∃ t, exec (.wdig pos idx) s = .next t ∧ ∀ p : Fin 8, 5 ≤ p.val → readBuf t p = readBuf s p

/-- 41_buffer.md R93: an index of `N` or more is a silent no-op (28 in CLOCK, 33 in GENERAL), and the largest
accepted indices are 27 and 32. -/
def Obligations.WdigIndexBoundIsTheTableSize : Prop :=
  ∀ (s : State) (pos idx : Nat),
    (s.config.variant = .clock → 28 ≤ idx → exec (.wdig pos idx) s = .next s) ∧
    (s.config.variant = .general → 33 ≤ idx → exec (.wdig pos idx) s = .next s) ∧
    (s.config.variant = .clock → ∃ t, exec (.wdig 4 27) s = .next t ∧
      readBuf t 4 = (s.config.glyphRomClock.get 27).setWidth 16) ∧
    (s.config.variant = .general → ∃ t, exec (.wdig 4 32) s = .next t ∧
      readBuf t 4 = (s.config.glyphRomGeneral.get 32).setWidth 16)

/-- 41_buffer.md R94: in CLOCK, WDIG at position 2 stores the index itself; the index bound applies first. -/
def Obligations.WdigClockSeparatorStoresTheIndex : Prop :=
  ∀ (s : State) (v : Nat), s.config.variant = .clock →
    (v < 28 → ∃ t, exec (.wdig 2 v) s = .next t ∧ readBuf t 2 = BitVec.ofNat 16 v ∧ (readBuf t 2).toNat = v ∧
      (∀ p : Fin 8, p ≠ 2 → readBuf t p = readBuf s p) ∧ OnlyBufDiffers s t) ∧
    (28 ≤ v → exec (.wdig 2 v) s = .next s)

/-- 41_buffer.md R95: in GENERAL, position 2 is encoded like any other. -/
def Obligations.WdigGeneralSeparatorStoresTheGlyph : Prop :=
  ∀ (s : State) (idx : Fin 33), s.config.variant = .general →
    ∃ t, exec (.wdig 2 idx) s = .next t ∧ readBuf t 2 = (s.config.glyphRomGeneral.get idx).setWidth 16 ∧
      (∀ p : Fin 8, p ≠ 2 → readBuf t p = readBuf s p) ∧ OnlyBufDiffers s t

/-- 40_glyph_encoder.md R80, 41_buffer.md R91: at every digit position (and at position 2 of GENERAL) WDIG stores the
entry of the instance's own table, zero-extended. -/
def Obligations.WdigStoresTheEntryOfItsOwnTable : Prop :=
  (∀ (s : State) (p : Fin 8) (idx : Fin 28), s.config.variant = .clock → p.val ≤ 4 → p ≠ 2 →
    ∃ t, exec (.wdig p idx) s = .next t ∧ readBuf t p = (s.config.glyphRomClock.get idx).setWidth 16 ∧
      (∀ q, q ≠ p → readBuf t q = readBuf s q) ∧ OnlyBufDiffers s t) ∧
  (∀ (s : State) (p : Fin 8) (idx : Fin 33), s.config.variant = .general → p.val ≤ 4 →
    ∃ t, exec (.wdig p idx) s = .next t ∧ readBuf t p = (s.config.glyphRomGeneral.get idx).setWidth 16 ∧
      (∀ q, q ≠ p → readBuf t q = readBuf s q) ∧ OnlyBufDiffers s t)

/-- 20_memory.md R48, 41_buffer.md R91: a word WDIG stores has bits 15:8 zero, so its first serialized byte is
`0x00`. -/
def Obligations.WdigStoredWordHasAZeroHighByte : Prop :=
  ∀ (s : State) (p : Fin 8) (idx : Nat), p.val ≤ 4 →
    idx < (if s.config.variant = .clock then 28 else 33) →
    ∃ t, exec (.wdig p idx) s = .next t ∧ bitField (readBuf t p) 8 8 = 0 ∧
      (serialize t.buf)[2 * p.val]? = some 0

/-- 40_glyph_encoder.md R84: with well-formed parameters the blank index is none of the digits or named letters and
is below `N`, and writing it to a digit position stores zero. -/
def Obligations.BlankGlyphWritesZero : Prop :=
  ∀ s : State, s.config.wf = true →
    (10 ≤ blankIdx s.config ∧
      (s.config.variant = .clock → blankIdx s.config < 28 ∧ ¬(21 ≤ blankIdx s.config ∧ blankIdx s.config ≤ 23)) ∧
      (s.config.variant = .general → blankIdx s.config < 33 ∧ ¬(21 ≤ blankIdx s.config ∧ blankIdx s.config ≤ 24))) ∧
    ∀ p : Fin 8, p.val ≤ 4 → p ≠ 2 →
      ∃ t, exec (.wdig p (blankIdx s.config)) s = .next t ∧ readBuf t p = 0

/-- 41_buffer.md R96: WRAW's word and its pseudocode, whatever the variant. -/
def Obligations.WrawFollowsItsPseudocode : Prop :=
  (∀ pos value : Nat, pos < 2 ^ 8 → value < 2 ^ 32 →
    decode ((0x03#64 <<< 56) ||| (BitVec.ofNat 64 pos <<< 40) ||| BitVec.ofNat 64 value) = .ok (.wraw pos value)) ∧
  ∀ (s : State) (pos value : Nat),
    (pos > 4 → exec (.wraw pos value) s = .next s) ∧
    (value > 0xFFFF → exec (.wraw pos value) s = .next s) ∧
    (pos ≤ 4 → value ≤ 0xFFFF →
      ∃ t, exec (.wraw pos value) s = .next t ∧
        (∀ p : Fin 8, p.val = pos → readBuf t p = BitVec.ofNat 16 value) ∧
        (∀ p : Fin 8, p.val ≠ pos → readBuf t p = readBuf s p) ∧ OnlyBufDiffers s t)

/-- 41_buffer.md R97: a position above 4 is a silent no-op, and WRAW never writes positions 5, 6 or 7. -/
def Obligations.WrawBeyondPositionFourIsANoOp : Prop :=
  ∀ (s : State) (pos value : Nat),
    (pos > 4 → exec (.wraw pos value) s = .next s) ∧
    ∃ t, exec (.wraw pos value) s = .next t ∧ ∀ p : Fin 8, 5 ≤ p.val → readBuf t p = readBuf s p

/-- 41_buffer.md R98: a value of more than 16 bits is a silent no-op; a stored word is the operand's own value. -/
def Obligations.WrawNeverTruncates : Prop :=
  ∀ (s : State) (pos value : Nat),
    (2 ^ 16 ≤ value → exec (.wraw pos value) s = .next s) ∧
    (value < 2 ^ 16 → ∀ p : Fin 8, p.val = pos → pos ≤ 4 →
      ∃ t, exec (.wraw pos value) s = .next t ∧ (readBuf t p).toNat = value)

/-- 41_buffer.md R99: WRAW accepts positions 0 to 4 in both variants, digit positions too. -/
def Obligations.WrawAcceptsDigitPositionsInBothVariants : Prop :=
  ∀ (s : State) (v : Variant) (p : Fin 8) (value : BufWord), s.config.variant = v → p.val ≤ 4 →
    ∃ t, exec (.wraw p value.toNat) s = .next t ∧ readBuf t p = value

/-- 41_buffer.md R100: a buffer command completes and affects BUF alone. -/
def Obligations.BufferCommandsAffectBufAlone : Prop :=
  ∀ (i : Instr) (s : State), isBufferCommand i = true →
    ∃ t, exec i s = .next t ∧ OnlyBufDiffers s t

/-- 41_buffer.md R101: a dropped buffer command leaves the whole state unchanged, whichever check fails and when
both do. -/
def Obligations.DroppedBufferCommandLeavesTheStateUnchanged : Prop :=
  ∀ (s : State) (pos x : Nat),
    (pos > 4 ∨ (if s.config.variant = .clock then 28 else 33) ≤ x → exec (.wdig pos x) s = .next s) ∧
    (pos > 4 ∨ 0xFFFF < x → exec (.wraw pos x) s = .next s)

/-- 10_state.md R27: buffer commands never write STATUS; protocol commands do, whatever it held. -/
def Obligations.OnlyProtocolCommandsWriteStatus : Prop :=
  ∀ (i : Instr) (s : State), ∃ t, exec i s = .next t ∧
    (isBufferCommand i = true → t.status = s.status) ∧
    (isBufferCommand i = false → t.status ≠ .none ∧
      ∀ v, ∃ u, exec i { s with status := v } = .next u ∧ u.status = t.status)

/-- 10_state.md R25: positions 5, 6 and 7 stay zero in every step, are zero at reset, and are sent as zero bytes. -/
def Obligations.UnusedPositionsStayZero : Prop :=
  UnusedZero State.reset ∧
  (∀ s t : State, UnusedZero s → step s = .next t → UnusedZero t) ∧
  (∀ s : State, UnusedZero s → (serialize s.buf).drop 10 = List.replicate 6 0)

/-! ### The serializer -/

/-- 20_memory.md R46: sixteen bytes, most significant byte of each word first, word 0 first. -/
def Obligations.SerializeIsBigEndianWordByWord : Prop :=
  ∀ s : State, (serialize s.buf).length = 16 ∧
    (∀ p : Fin 8, (serialize s.buf)[2 * p.val]? = some (bitField (readBuf s p) 8 8) ∧
      (serialize s.buf)[2 * p.val + 1]? = some (bitField (readBuf s p) 0 8)) ∧
    serializePort s = serialize s.buf

/-- 20_memory.md R47: serialization is invertible. -/
def Obligations.SerializeIsInvertible : Prop :=
  ∀ s : State, deserialize (serialize s.buf) = s.buf.toList ∧
    ∀ p : Fin 8, ∃ hi lo : Byte,
      (serialize s.buf)[2 * p.val]? = some hi ∧ (serialize s.buf)[2 * p.val + 1]? = some lo ∧
      readBuf s p = (hi.setWidth 16 <<< 8) ||| lo.setWidth 16

/-! ### The protocol commands -/

/-- 42_protocol.md R110: the transport write. Both answers are admitted at every write, and nothing of the state but
TXLOG and the transport's own inputs changes. -/
def Obligations.TxWriteLogsTheFrameWithEitherAnswer : Prop :=
  ∀ (s : State) (frame : Frame),
    Sent s (txWrite frame s).2 [⟨frame, (txWrite frame s).1⟩] ∧ (txWrite frame s).2.status = s.status ∧
    ∀ a : Answer, (txWrite frame { s with answers := a :: s.answers }).1 = a ∧
      (txWrite frame { s with answers := a :: s.answers }).2.txlog = s.txlog ++ [⟨frame, a⟩]

/-- 42_protocol.md R112, R113, R114: SETUP's word; the oscillator-on frame, then, only if it answered `ok`, the data
frame, with the report of each outcome. -/
def Obligations.SetupSendsOscillatorOnThenFlushes : Prop :=
  decode 0x0400000000000000 = .ok .setup ∧
  ∀ s : State, ∃ t, exec .setup s = .next t ∧
    (txAnswer s = .fail → Sent s t [⟨[0x21], .fail⟩] ∧ t.status = .initFail) ∧
    (txAnswer s = .ok → ∃ b, b = txAnswer { s with answers := s.answers.tail, draws := s.draws + 1 } ∧
      Sent s t [⟨[0x21], .ok⟩, ⟨serialize s.buf, b⟩] ∧ t.status = (if b = .ok then .ok else .xferFail))

/-- 42_protocol.md R115: SETUP's report for every pair of answers; INIT_FAIL stops nothing: every command runs after
it. -/
def Obligations.SetupReportsEachOutcome : Prop :=
  ∀ (s : State) (rest : List Answer),
    (∃ t, exec .setup { s with answers := .fail :: rest } = .next t ∧ t.status = .initFail ∧
      t.txlog = s.txlog ++ [⟨[0x21], .fail⟩] ∧ ∀ i, ∃ u, exec i t = .next u) ∧
    (∃ t, exec .setup { s with answers := .ok :: .ok :: rest } = .next t ∧ t.status = .ok ∧
      t.txlog = s.txlog ++ [⟨[0x21], .ok⟩, ⟨serialize s.buf, .ok⟩]) ∧
    (∃ t, exec .setup { s with answers := .ok :: .fail :: rest } = .next t ∧ t.status = .xferFail ∧
      t.txlog = s.txlog ++ [⟨[0x21], .ok⟩, ⟨serialize s.buf, .fail⟩])

/-- 42_protocol.md R116: BRIGHT's word and its pseudocode. -/
def Obligations.BrightFollowsItsPseudocode : Prop :=
  (∀ arg : BitVec 32, decode ((0x05#64 <<< 56) ||| arg.setWidth 64) = .ok (.bright arg.toInt)) ∧
  ∀ (s : State) (level : Int), ∃ t L, exec (.bright level) s = .next t ∧
    L = (if level < 0 then 0 else if level > 15 then 15 else level.toNat) ∧
    Sent s t [⟨[0xE0 ||| BitVec.ofNat 8 L], txAnswer s⟩] ∧
    t.status = (if txAnswer s = .ok then .ok else .xferFail)

/-- 42_protocol.md R117: a level out of 0..15 acts as the nearer end of the range. -/
def Obligations.BrightClampsTheLevel : Prop :=
  ∀ (s : State) (level : Int),
    (level > 15 → exec (.bright level) s = exec (.bright 15) s) ∧
    (level < 0 → exec (.bright level) s = exec (.bright 0) s) ∧
    ∃ t, exec (.bright level) s = .next t

/-- 42_protocol.md R118: the brightness frame of a level in range, bit by bit. -/
def Obligations.BrightFrameCarriesTheLevel : Prop :=
  ∀ (s : State) (L : Fin 16), ∃ t b, exec (.bright L.val) s = .next t ∧
    t.txlog = s.txlog ++ [⟨[b], txAnswer s⟩] ∧ b = 0xE0 ||| BitVec.ofNat 8 L.val ∧
    bitField b 4 4 = 0b1110 ∧ (bitField b 0 4).toNat = L.val

/-- 42_protocol.md R120: BLINK's word and its pseudocode. -/
def Obligations.BlinkFollowsItsPseudocode : Prop :=
  (∀ rate : BitVec 32, decode ((0x06#64 <<< 56) ||| rate.setWidth 64) = .ok (.blink rate.toNat)) ∧
  ∀ (s : State) (rate : Nat), ∃ t r, exec (.blink rate) s = .next t ∧
    r = (if rate ≤ 3 then rate else 0) ∧
    Sent s t [⟨[0x80 ||| 0x01 ||| (BitVec.ofNat 8 r <<< 1)], txAnswer s⟩] ∧
    t.status = (if txAnswer s = .ok then .ok else .xferFail)

/-- 42_protocol.md R121: a rate outside 0..3 acts as 0, not as 3. -/
def Obligations.BlinkTreatsAnyOtherRateAsZero : Prop :=
  ∀ (s : State) (rate : Nat), 3 < rate →
    exec (.blink rate) s = exec (.blink 0) s ∧ exec (.blink rate) s ≠ exec (.blink 3) s ∧
    ∃ t, exec (.blink rate) s = .next t

/-- 42_protocol.md R122: the four blink bytes. -/
def Obligations.BlinkBytesAreTheFourOfTheTable : Prop :=
  ∀ s : State,
    (∃ t, exec (.blink 0) s = .next t ∧ t.txlog = s.txlog ++ [⟨[0x81], txAnswer s⟩]) ∧
    (∃ t, exec (.blink 1) s = .next t ∧ t.txlog = s.txlog ++ [⟨[0x83], txAnswer s⟩]) ∧
    (∃ t, exec (.blink 2) s = .next t ∧ t.txlog = s.txlog ++ [⟨[0x85], txAnswer s⟩]) ∧
    (∃ t, exec (.blink 3) s = .next t ∧ t.txlog = s.txlog ++ [⟨[0x87], txAnswer s⟩])

/-- 42_protocol.md R124, R125, R126: FLUSH's word; it sends the whole buffer in one write, reports the answer and
never changes BUF. -/
def Obligations.FlushSendsTheWholeBufferOnce : Prop :=
  decode 0x0700000000000000 = .ok .flush ∧
  ∀ s : State, ∃ t, exec .flush s = .next t ∧ Sent s t [⟨serialize s.buf, txAnswer s⟩] ∧
    (serialize s.buf).length = 16 ∧ t.status = (if txAnswer s = .ok then .ok else .xferFail)

/-- 42_protocol.md R119, R123, R126: with each answer the transport may give, the three one-write commands report it;
no answer changes BUF. -/
def Obligations.OneWriteCommandsReportEitherAnswer : Prop :=
  ∀ (s : State) (a : Answer) (rest : List Answer) (i : Instr),
    (i = .flush ∨ (∃ level, i = .bright level) ∨ ∃ rate, i = .blink rate) →
    ∃ t frame, exec i { s with answers := a :: rest } = .next t ∧ t.txlog = s.txlog ++ [⟨frame, a⟩] ∧
      t.status = (match a with | .ok => .ok | .fail => .xferFail) ∧ t.buf = s.buf ∧ t.answers = rest

/-- 20_memory.md R52, 42_protocol.md R111, 70_reset_and_hazards.md R167: the same command twice sends its frame
twice, each with its own answer; a FLUSH after a failed FLUSH sends the same bytes again. -/
def Obligations.RepeatedCommandSendsItsFrameAgain : Prop :=
  ∀ (s : State) (a b : Answer) (rest : List Answer) (i : Instr),
    (i = .flush ∨ (∃ level, i = .bright level) ∨ ∃ rate, i = .blink rate) →
    ∃ t u frame, exec i { s with answers := a :: b :: rest } = .next t ∧ exec i t = .next u ∧
      u.txlog = s.txlog ++ [⟨frame, a⟩, ⟨frame, b⟩] ∧ u.buf = s.buf

/-- 42_protocol.md R127: how many writes each command issues. -/
def Obligations.WritesPerCommand : Prop :=
  ∀ (i : Instr) (s : State), ∃ t new, exec i s = .next t ∧ t.txlog = s.txlog ++ new ∧
    (isBufferCommand i = true → new.length = 0) ∧
    (i = .setup → new.length = (if txAnswer s = .fail then 1 else 2)) ∧
    (isBufferCommand i = false → i ≠ .setup → new.length = 1)

/-- 42_protocol.md R128: no STATUS value changes what the next command does: it completes, with the same buffer, the
same frames and the same report. -/
def Obligations.StatusNeverInfluencesACommand : Prop :=
  ∀ (i : Instr) (s : State) (v : Status), ∃ t, exec i s = .next t ∧
    exec i { s with status := v } = .next { t with status := if isBufferCommand i then v else t.status }

/-- 42_protocol.md R129, 10_state.md R31: no command reads what was sent before. With any other log, a run of SETUP in
it or none, a command does the same and adds the same frames. -/
def Obligations.TheLogNeverInfluencesACommand : Prop :=
  ∀ (i : Instr) (s : State), ∃ t new, exec i s = .next t ∧ t.txlog = s.txlog ++ new ∧
    ∀ log, exec i { s with txlog := log } = .next { t with txlog := log ++ new }

/-! ### Whole-machine rules -/

/-- 60_exceptions.md R140, R148: no command ever stops, whatever its operands and whatever the state. -/
def Obligations.EveryCommandCompletesInEveryState : Prop :=
  ∀ (i : Instr) (s : State), ∃ t, exec i s = .next t

/-- 10_state.md R28: no step writes the glyph ROM. VARIANT and the blank indices stay too (00_scope.md R2). -/
def Obligations.NoStepWritesTheGlyphRom : Prop :=
  ∀ s t : State, step s = .next t → t.config = s.config

/-- 20_memory.md R54, 10_state.md R31: TXLOG only grows, at its end and by at most two entries a step, unless the
host resets. -/
def Obligations.LogGrowsAtItsEndUnlessReset : Prop :=
  ∀ s t : State, step s = .next t →
    (∃ rest, s.host = .reset :: rest) ∨ ∃ new, t.txlog = s.txlog ++ new ∧ new.length ≤ 2

/-- 10_state.md R24, conflict C4: while the host uses WRAW for the separator alone, every digit position holds zero or
an entry of the table; a WRAW at a digit position may break that. -/
def Obligations.DigitsHoldGlyphsWhileWrawIsForTheSeparator : Prop :=
  (∀ s t : State, DigitsHoldGlyphs s → WrawForSeparatorOnly s → step s = .next t → DigitsHoldGlyphs t) ∧
  (∀ (s : State) (p : Fin 8) (v : BufWord), p.val ≤ 4 → p ≠ 2 → v ≠ 0 →
    (∀ i mask, encodeGlyph s.config i = some mask → v ≠ glyphWord mask) →
    ∃ t, exec (.wraw p v.toNat) s = .next t ∧ ¬ DigitsHoldGlyphs t)

/-- 60_exceptions.md R150, 30_encoding.md R72: from a state whose positions 5-7 are zero, every frame a step adds is
one of the legal frames; `0x20` and `0x80` are none. -/
def Obligations.OnlyLegalFramesAreSent : Prop :=
  (∀ s t : State, UnusedZero s → step s = .next t → ∀ r ∈ t.txlog, r ∈ s.txlog ∨ legalFrame r.frame = true) ∧
  legalFrame [0x20] = false ∧ legalFrame [0x80] = false

/-- 10_state.md R26: STATUS always reports TXLOG: NONE while nothing was sent since reset, else the last write's
answer, with INIT_FAIL for a failed oscillator-on write. Every step keeps it, from every state that has it. -/
def Obligations.StatusReportsTheLogInEveryStep : Prop :=
  ∀ s t : State, s.status = logStatus s.txlog → step s = .next t → t.status = logStatus t.txlog

/-- 20_memory.md R51, R55: a FLUSH right after a buffer command sends the buffer as that command left it. -/
def Obligations.FlushSeesEveryEarlierBufferWrite : Prop :=
  ∀ (s : State) (w : CmdWord) (rest : List HostInput) (i : Instr),
    s.host = .command w :: .command 0x0700000000000000 :: rest → decode w = .ok i → isBufferCommand i = true →
    ∃ u t a, exec i s = .next u ∧ core.run 2 s = .next t ∧
      t.txlog = s.txlog ++ [⟨serialize u.buf, a⟩] ∧ t.buf = u.buf ∧ t.host = rest

/-- 20_memory.md R43, 42_protocol.md R126: what the transport answers, what was sent and what STATUS holds never
reach BUF: two runs of any length that start with the same buffer, parameters and host inputs keep the same buffer,
and both go on or both stop. -/
def Obligations.AnswersNeverReachTheBuffer : Prop :=
  ∀ (n : Nat) (s s' : State), s.buf = s'.buf → s.config = s'.config → s.host = s'.host →
    match core.run n s, core.run n s' with
    | .next t, .next t' => t.buf = t'.buf ∧ t.config = t'.config ∧ t.host = t'.host
    | .fault f, .fault f' => f = f'
    | .refused r, .refused r' => r = r'
    | _, _ => False

/-- 60_exceptions.md R155, 70_reset_and_hazards.md R173: while the host keeps its duties no run of any length stops,
and the invariant holds throughout, whatever the transport answers. -/
def Obligations.AHostKeepingItsDutiesNeverMeetsAStop : Prop :=
  ∀ (n : Nat) (s : State), hostDuties s = true → Inv s →
    ∃ t, core.run n s = .next t ∧ hostDuties t = true ∧ Inv t
end

