-- ==== Sys2Proof/Laws/Decode.lean ====
section
/-! SUPPORT. The fields of an assembled word, and the opcode map read both ways. -/

namespace Sys2Proof

theorem opField_assemble (op : Opcode) (pos : Byte) (arg : BitVec 32) :
    opField (assemble op pos arg) = op.code := by
  apply BitVec.eq_of_getLsbD_eq
  intro j hj
  have hpos : pos.getLsbD (56 + j - 40) = false := BitVec.getLsbD_of_ge _ _ (by omega)
  have harg : arg.getLsbD (56 + j) = false := BitVec.getLsbD_of_ge _ _ (by omega)
  simp [opField, bitField, assemble, hj, hpos, harg, show ¬ 56 + j < 40 by omega, show 56 + j < 64 by omega]

theorem rsv1Field_assemble (op : Opcode) (pos : Byte) (arg : BitVec 32) :
    rsv1Field (assemble op pos arg) = 0 := by
  apply BitVec.eq_of_getLsbD_eq
  intro j hj
  have hpos : pos.getLsbD (48 + j - 40) = false := BitVec.getLsbD_of_ge _ _ (by omega)
  have harg : arg.getLsbD (48 + j) = false := BitVec.getLsbD_of_ge _ _ (by omega)
  simp [rsv1Field, bitField, assemble, hj, hpos, harg, show 48 + j < 56 by omega]

theorem posField_assemble (op : Opcode) (pos : Byte) (arg : BitVec 32) :
    posField (assemble op pos arg) = pos := by
  apply BitVec.eq_of_getLsbD_eq
  intro j hj
  have harg : arg.getLsbD (40 + j) = false := BitVec.getLsbD_of_ge _ _ (by omega)
  simp [posField, bitField, assemble, hj, harg, show 40 + j < 56 by omega, show 40 + j < 64 by omega]

theorem rsv2Field_assemble (op : Opcode) (pos : Byte) (arg : BitVec 32) :
    rsv2Field (assemble op pos arg) = 0 := by
  apply BitVec.eq_of_getLsbD_eq
  intro j hj
  simp [rsv2Field, bitField, assemble, hj, show 32 + j < 56 by omega, show 32 + j < 40 by omega]

theorem argField_assemble (op : Opcode) (pos : Byte) (arg : BitVec 32) :
    argField (assemble op pos arg) = arg := by
  apply BitVec.eq_of_getLsbD_eq
  intro j hj
  simp [argField, bitField, assemble, hj, show j < 56 by omega, show j < 40 by omega, show j < 64 by omega]

theorem opcodeOf_code (op : Opcode) : opcodeOf op.code = some op := by cases op <;> rfl

end Sys2Proof
end

