-- ==== Sys2Proof/Laws/State.lean ====
section
/-! SUPPORT. One lemma per field of State per update: what each operation leaves in each field. -/

namespace Sys2Proof.Machine

open Sys2Proof

@[simp] theorem txWrite_answer (f : Frame) (s : State) : (txWrite f s).1 = txAnswer s := rfl

@[simp] theorem writeBuf_buf (p : Fin 8) (v : BufWord) (s : State) : (writeBuf p v s).buf = s.buf.set p v := rfl
@[simp] theorem writeBuf_status (p : Fin 8) (v : BufWord) (s : State) : (writeBuf p v s).status = s.status := rfl
@[simp] theorem writeBuf_txlog (p : Fin 8) (v : BufWord) (s : State) : (writeBuf p v s).txlog = s.txlog := rfl
@[simp] theorem writeBuf_config (p : Fin 8) (v : BufWord) (s : State) : (writeBuf p v s).config = s.config := rfl
@[simp] theorem writeBuf_host (p : Fin 8) (v : BufWord) (s : State) : (writeBuf p v s).host = s.host := rfl
@[simp] theorem writeBuf_answers (p : Fin 8) (v : BufWord) (s : State) : (writeBuf p v s).answers = s.answers := rfl
@[simp] theorem writeBuf_draws (p : Fin 8) (v : BufWord) (s : State) : (writeBuf p v s).draws = s.draws := rfl

@[simp] theorem zeroBuf_buf (s : State) : (zeroBuf s).buf = Vector.replicate 8 0 := rfl
@[simp] theorem zeroBuf_status (s : State) : (zeroBuf s).status = s.status := rfl
@[simp] theorem zeroBuf_txlog (s : State) : (zeroBuf s).txlog = s.txlog := rfl
@[simp] theorem zeroBuf_config (s : State) : (zeroBuf s).config = s.config := rfl
@[simp] theorem zeroBuf_host (s : State) : (zeroBuf s).host = s.host := rfl
@[simp] theorem zeroBuf_answers (s : State) : (zeroBuf s).answers = s.answers := rfl
@[simp] theorem zeroBuf_draws (s : State) : (zeroBuf s).draws = s.draws := rfl

@[simp] theorem setStatus_buf (v : Status) (s : State) : (setStatus v s).buf = s.buf := rfl
@[simp] theorem setStatus_status (v : Status) (s : State) : (setStatus v s).status = v := rfl
@[simp] theorem setStatus_txlog (v : Status) (s : State) : (setStatus v s).txlog = s.txlog := rfl
@[simp] theorem setStatus_config (v : Status) (s : State) : (setStatus v s).config = s.config := rfl
@[simp] theorem setStatus_host (v : Status) (s : State) : (setStatus v s).host = s.host := rfl
@[simp] theorem setStatus_answers (v : Status) (s : State) : (setStatus v s).answers = s.answers := rfl
@[simp] theorem setStatus_draws (v : Status) (s : State) : (setStatus v s).draws = s.draws := rfl

@[simp] theorem txWrite_buf (f : Frame) (s : State) : (txWrite f s).2.buf = s.buf := rfl
@[simp] theorem txWrite_status (f : Frame) (s : State) : (txWrite f s).2.status = s.status := rfl
@[simp] theorem txWrite_txlog (f : Frame) (s : State) : (txWrite f s).2.txlog = s.txlog ++ [⟨f, txAnswer s⟩] := rfl
@[simp] theorem txWrite_config (f : Frame) (s : State) : (txWrite f s).2.config = s.config := rfl
@[simp] theorem txWrite_host (f : Frame) (s : State) : (txWrite f s).2.host = s.host := rfl
@[simp] theorem txWrite_answers (f : Frame) (s : State) : (txWrite f s).2.answers = s.answers.tail := rfl
@[simp] theorem txWrite_draws (f : Frame) (s : State) : (txWrite f s).2.draws = s.draws + 1 := rfl

@[simp] theorem sendAndReport_buf (f : Frame) (s : State) : (sendAndReport f s).buf = s.buf := rfl
@[simp] theorem sendAndReport_status (f : Frame) (s : State) : (sendAndReport f s).status = transferStatus (txAnswer s) := rfl
@[simp] theorem sendAndReport_txlog (f : Frame) (s : State) : (sendAndReport f s).txlog = s.txlog ++ [⟨f, txAnswer s⟩] := rfl
@[simp] theorem sendAndReport_config (f : Frame) (s : State) : (sendAndReport f s).config = s.config := rfl
@[simp] theorem sendAndReport_host (f : Frame) (s : State) : (sendAndReport f s).host = s.host := rfl
@[simp] theorem sendAndReport_answers (f : Frame) (s : State) : (sendAndReport f s).answers = s.answers.tail := rfl
@[simp] theorem sendAndReport_draws (f : Frame) (s : State) : (sendAndReport f s).draws = s.draws + 1 := rfl

@[simp] theorem setHost_buf (h : List HostInput) (s : State) : (setHost h s).buf = s.buf := rfl
@[simp] theorem setHost_status (h : List HostInput) (s : State) : (setHost h s).status = s.status := rfl
@[simp] theorem setHost_txlog (h : List HostInput) (s : State) : (setHost h s).txlog = s.txlog := rfl
@[simp] theorem setHost_config (h : List HostInput) (s : State) : (setHost h s).config = s.config := rfl
@[simp] theorem setHost_host (h : List HostInput) (s : State) : (setHost h s).host = h := rfl
@[simp] theorem setHost_answers (h : List HostInput) (s : State) : (setHost h s).answers = s.answers := rfl
@[simp] theorem setHost_draws (h : List HostInput) (s : State) : (setHost h s).draws = s.draws := rfl

@[simp] theorem presentCommand_buf (w : CmdWord) (s : State) : (presentCommand w s).buf = s.buf := rfl
@[simp] theorem presentCommand_status (w : CmdWord) (s : State) : (presentCommand w s).status = s.status := rfl
@[simp] theorem presentCommand_txlog (w : CmdWord) (s : State) : (presentCommand w s).txlog = s.txlog := rfl
@[simp] theorem presentCommand_config (w : CmdWord) (s : State) : (presentCommand w s).config = s.config := rfl
@[simp] theorem presentCommand_host (w : CmdWord) (s : State) : (presentCommand w s).host = .command w :: s.host := rfl
@[simp] theorem presentCommand_answers (w : CmdWord) (s : State) : (presentCommand w s).answers = s.answers := rfl
@[simp] theorem presentCommand_draws (w : CmdWord) (s : State) : (presentCommand w s).draws = s.draws := rfl

@[simp] theorem hostReset_buf (s : State) : (hostReset s).buf = Vector.replicate 8 0 := rfl
@[simp] theorem hostReset_status (s : State) : (hostReset s).status = .none := rfl
@[simp] theorem hostReset_txlog (s : State) : (hostReset s).txlog = [] := rfl
@[simp] theorem hostReset_config (s : State) : (hostReset s).config = s.config := rfl
@[simp] theorem hostReset_host (s : State) : (hostReset s).host = s.host := rfl
@[simp] theorem hostReset_answers (s : State) : (hostReset s).answers = s.answers := rfl
@[simp] theorem hostReset_draws (s : State) : (hostReset s).draws = s.draws := rfl

end Sys2Proof.Machine
end

