-- ==== Sys2Proof/Laws/Ops.lean ====
section
/-! SUPPORT. One law per shared operation: the buffer accesses, the operand checks, the glyph lookup, the serializer and the transport write. -/

namespace Sys2Proof.Machine

open Sys2Proof

/-! ### The buffer -/

theorem readBuf_writeBuf (p q : Fin 8) (v : BufWord) (s : State) :
    readBuf (writeBuf p v s) q = if q = p then v else readBuf s q := by
  obtain ⟨p, hp⟩ := p
  obtain ⟨q, hq⟩ := q
  simp [readBuf, writeBuf, Vector.get_eq_getElem, Vector.getElem_set, eq_comm]

@[simp] theorem readBuf_writeBuf_same (p : Fin 8) (v : BufWord) (s : State) :
    readBuf (writeBuf p v s) p = v := by simp [readBuf_writeBuf]

theorem readBuf_writeBuf_other {p q : Fin 8} (h : q ≠ p) (v : BufWord) (s : State) :
    readBuf (writeBuf p v s) q = readBuf s q := by simp [readBuf_writeBuf, h]

@[simp] theorem readBuf_zeroBuf (p : Fin 8) (s : State) : readBuf (zeroBuf s) p = 0 := by
  simp [readBuf, zeroBuf, Vector.get_eq_getElem]

@[simp] theorem readBuf_hostReset (p : Fin 8) (s : State) : readBuf (hostReset s) p = 0 := by
  simp [readBuf, Vector.get_eq_getElem]

/-- A state's words depend on BUF alone. -/
theorem readBuf_congr {s t : State} (h : t.buf = s.buf) (p : Fin 8) : readBuf t p = readBuf s p := by
  simp [readBuf, h]

/-! ### The operand checks -/

theorem writablePos_of_le {pos : Nat} (h : pos ≤ 4) : writablePos pos = some ⟨pos, by omega⟩ := by
  simp [writablePos, h]

theorem writablePos_of_gt {pos : Nat} (h : 4 < pos) : writablePos pos = none := by
  simp [writablePos, Nat.not_le.mpr h]

theorem writablePos_eq_some {pos : Nat} {p : Fin 8} (h : writablePos pos = some p) :
    p.val = pos ∧ pos ≤ 4 := by
  unfold writablePos at h
  split at h
  · simp only [Option.some.injEq] at h; subst h; exact ⟨rfl, ‹_›⟩
  · cases h

theorem rawWord_of_le {value : Nat} (h : value ≤ 0xFFFF) : rawWord value = some (BitVec.ofNat 16 value) := by
  simp [rawWord, Nat.not_lt.mpr h]

theorem rawWord_of_gt {value : Nat} (h : 0xFFFF < value) : rawWord value = none := by
  simp [rawWord, h]

theorem clampLevel_le (level : Int) : clampLevel level ≤ 15 := by
  unfold clampLevel; split_ifs <;> omega

theorem blinkField_le (rate : Nat) : blinkField rate ≤ 3 := by
  unfold blinkField; split_ifs <;> omega

/-! ### The glyph ROM -/

/-- The lookup of an index: an entry of the instance's own table below `N`, nothing from `N` on. -/
theorem encodeGlyph_clock {c : BlockConfig} (hv : c.variant = .clock) (i : Nat) :
    encodeGlyph c i = if h : i < 28 then some (c.glyphRomClock.get ⟨i, h⟩) else none := by
  simp only [encodeGlyph, hv, Vector.get_eq_getElem]
  split <;> simp_all

theorem encodeGlyph_general {c : BlockConfig} (hv : c.variant = .general) (i : Nat) :
    encodeGlyph c i = if h : i < 33 then some (c.glyphRomGeneral.get ⟨i, h⟩) else none := by
  simp only [encodeGlyph, hv, Vector.get_eq_getElem]
  split <;> simp_all

theorem encodeGlyph_isSome (c : BlockConfig) (i : Nat) :
    (encodeGlyph c i).isSome = decide (i < glyphCount c.variant) := by
  cases hv : c.variant
  · rw [encodeGlyph_clock hv]; by_cases h : i < 28 <;> simp [h, glyphCount]
  · rw [encodeGlyph_general hv]; by_cases h : i < 33 <;> simp [h, glyphCount]

/-- A query at the lookup port either changes nothing or faults. -/
theorem lookupQuery_cases (i : Nat) (s : State) :
    ((encodeGlyph s.config i).isSome = true ∧ lookupQuery i s = .next s) ∨
      (encodeGlyph s.config i = none ∧ lookupQuery i s = .fault (.lookupOutOfRange i)) := by
  cases h : encodeGlyph s.config i <;> simp [lookupQuery, lookupPort, h]

/-! ### The stores -/

/-- WDIG either stores one word at a position 0 to 4 or drops. -/
theorem writeDigit_cases (pos idx : Nat) (s : State) :
    (∃ p mask, writablePos pos = some p ∧ encodeGlyph s.config idx = some mask ∧
      writeDigit pos idx s = writeBuf p (digitWord s.config.variant p idx mask) s) ∨
    ((writablePos pos = none ∨ encodeGlyph s.config idx = none) ∧ writeDigit pos idx s = s) := by
  unfold writeDigit
  cases writablePos pos <;> cases encodeGlyph s.config idx <;> simp

/-- WRAW either stores one word at a position 0 to 4 or drops. -/
theorem writeRaw_cases (pos value : Nat) (s : State) :
    (∃ p v, writablePos pos = some p ∧ rawWord value = some v ∧ writeRaw pos value s = writeBuf p v s) ∨
    ((writablePos pos = none ∨ rawWord value = none) ∧ writeRaw pos value s = s) := by
  unfold writeRaw
  cases writablePos pos <;> cases rawWord value <;> simp

/-- A store changes BUF alone. -/
theorem onlyBufDiffers_writeBuf (p : Fin 8) (v : BufWord) (s : State) : OnlyBufDiffers s (writeBuf p v s) :=
  ⟨rfl, rfl, rfl, rfl, rfl, rfl⟩

theorem onlyBufDiffers_refl (s : State) : OnlyBufDiffers s s := ⟨rfl, rfl, rfl, rfl, rfl, rfl⟩

/-! ### The serializer -/

/-- The eight words of a buffer, in order. -/
theorem buf_toList (buf : Vector BufWord 8) :
    buf.toList = [buf[0], buf[1], buf[2], buf[3], buf[4], buf[5], buf[6], buf[7]] := by
  apply List.ext_getElem
  · simp
  · intro n h1 h2
    have hn : n < 8 := by simpa using h1
    interval_cases n <;> simp

/-- Splitting a word in bytes and joining them gives the word back. -/
theorem joinBytes_split (v : BufWord) : joinBytes (bitField v 8 8) (bitField v 0 8) = v := by
  apply BitVec.eq_of_getLsbD_eq
  intro i hi
  by_cases h : i < 8
  · simp [joinBytes, bitField, h, hi]
  · simp [joinBytes, bitField, h, hi, show i - 8 < 8 by omega, show 8 + (i - 8) = i by omega]

theorem dataframe_eq (buf : Vector BufWord 8) : dataframe buf = serialize buf := rfl

/-! ### The transport write -/

theorem txAnswer_cons (a : Answer) (rest : List Answer) (s : State) (h : s.answers = a :: rest) :
    txAnswer s = a := by simp [txAnswer, h]

/-- The transport's answer depends on its own inputs alone. -/
theorem txAnswer_congr {s t : State} (ha : t.answers = s.answers) (hd : t.draws = s.draws) :
    txAnswer t = txAnswer s := by simp [txAnswer, ha, hd]

/-- One steady-state write: one frame sent with its answer, BUF, the parameters and the host's inputs kept. -/
theorem sent_sendAndReport (f : Frame) (s : State) : Sent s (sendAndReport f s) [⟨f, txAnswer s⟩] :=
  ⟨rfl, by simp, rfl, rfl, rfl, rfl⟩

/-- What STATUS says of a log with one more entry. -/
theorem logStatus_append (log : List TxRecord) (r : TxRecord) :
    logStatus (log ++ [r]) = (match r.answer with
      | .ok => .ok
      | .fail => if r.frame = [oscillatorByte] then .initFail else .xferFail) := by
  obtain ⟨f, a⟩ := r
  cases a <;> simp [logStatus]

/-- A steady-state write of any frame but the oscillator-on byte is reported as the log reports it. -/
theorem logStatus_sendAndReport (f : Frame) (h : f ≠ [oscillatorByte]) (s : State) :
    (sendAndReport f s).status = logStatus (sendAndReport f s).txlog := by
  simp only [sendAndReport_status, sendAndReport_txlog, logStatus_append]
  cases txAnswer s <;> simp [transferStatus, h]

end Sys2Proof.Machine
end

