-- ==== Sys2Proof/Laws/PerInstr.lean ====
section
/-! SUPPORT. Statements about every command as syntax, one lemma per constructor (LAWS.json). -/

namespace Sys2Proof.Laws.EncodedHeader

open Sys2Proof

/-- The encoded word carries the command's opcode, and its reserved fields are zero (30_encoding.md R60, R63). -/
def Statement (i : Instr) : Prop :=
  opField (encode i) = i.opcode.code ∧ rsv1Field (encode i) = 0 ∧ rsv2Field (encode i) = 0

theorem clear : Statement .clear :=
  ⟨opField_assemble .., rsv1Field_assemble .., rsv2Field_assemble ..⟩

theorem wdig (pos idx : Nat) : Statement (.wdig pos idx) :=
  ⟨opField_assemble .., rsv1Field_assemble .., rsv2Field_assemble ..⟩

theorem wraw (pos value : Nat) : Statement (.wraw pos value) :=
  ⟨opField_assemble .., rsv1Field_assemble .., rsv2Field_assemble ..⟩

theorem setup : Statement .setup :=
  ⟨opField_assemble .., rsv1Field_assemble .., rsv2Field_assemble ..⟩

theorem bright (level : Int) : Statement (.bright level) :=
  ⟨opField_assemble .., rsv1Field_assemble .., rsv2Field_assemble ..⟩

theorem blink (rate : Nat) : Statement (.blink rate) :=
  ⟨opField_assemble .., rsv1Field_assemble .., rsv2Field_assemble ..⟩

theorem flush : Statement .flush :=
  ⟨opField_assemble .., rsv1Field_assemble .., rsv2Field_assemble ..⟩

end Sys2Proof.Laws.EncodedHeader
end

