-- ==== Sys2Proof/Laws/Step.lean ====
section
/-! SUPPORT. What a command and a step can do, said once. -/

namespace Sys2Proof.Machine

open Sys2Proof

/-- SETUP's two ways: one frame and `INIT_FAIL`, or two frames and the report of the second. -/
theorem execSetup_cases (s : State) :
    (txAnswer s = .fail ∧
      execSetup s = .next (setStatus .initFail (txWrite [oscillatorByte] s).2)) ∨
    (txAnswer s = .ok ∧
      execSetup s = .next (sendAndReport (dataframe s.buf) (txWrite [oscillatorByte] s).2)) := by
  cases h : txAnswer s
  · exact .inr ⟨rfl, by simp [execSetup, h, setupRest]⟩
  · exact .inl ⟨rfl, by simp [execSetup, h, setupRest]⟩

/-- The state an executed command leaves: a command never stops (60_exceptions.md R140). -/
def effect (i : Instr) (s : State) : State :=
  match i with
  | .clear => zeroBuf s
  | .wdig pos idx => writeDigit pos idx s
  | .wraw pos value => writeRaw pos value s
  | .setup => setupRest (txAnswer s) (txWrite [oscillatorByte] s).2
  | .bright level => sendAndReport [brightByte (clampLevel level)] s
  | .blink rate => sendAndReport [blinkByte (blinkField rate)] s
  | .flush => sendAndReport (dataframe s.buf) s

theorem exec_eq_effect (i : Instr) (s : State) : exec i s = .next (effect i s) := by
  cases i <;> rfl

theorem exec_eq_next {i : Instr} {s t : State} : exec i s = .next t ↔ t = effect i s := by
  rw [exec_eq_effect]
  constructor
  · intro h; cases h; rfl
  · rintro rfl; rfl

/-- Everything a step that goes on can do. -/
theorem step_cases {s t : State} (h : step s = .next t) :
    (s.host = [] ∧ t = s) ∨
    (∃ w i rest, s.host = .command w :: rest ∧ decode w = .ok i ∧ t = effect i (setHost rest s)) ∨
    (∃ rest, s.host = .reset :: rest ∧ t = hostReset (setHost rest s)) ∨
    (∃ i rest, s.host = .lookup i :: rest ∧ (encodeGlyph s.config i).isSome = true ∧ t = setHost rest s) := by
  unfold step at h
  split at h
  · rename_i hh
    exact .inl ⟨hh, by cases h; rfl⟩
  · rename_i w rest hh
    split at h
    · rename_i i hd
      exact .inr (.inl ⟨w, i, rest, hh, hd, exec_eq_next.mp h⟩)
    · cases h
  · rename_i rest hh
    exact .inr (.inr (.inl ⟨rest, hh, by cases h; rfl⟩))
  · rename_i i rest hh
    obtain ⟨hs, he⟩ | ⟨-, he⟩ := lookupQuery_cases i (setHost rest s)
    · rw [he] at h; cases h
      exact .inr (.inr (.inr ⟨i, rest, hh, hs, rfl⟩))
    · rw [he] at h; cases h

end Sys2Proof.Machine
end

