-- ==== Sys2Proof/Tests/Slice0.lean ====
section
/-! SUPPORT. The model's own tests, with expected results from spec/, and a witness for every statement that has hypotheses. -/

namespace Sys2Proof.Tests

open Sys2Proof Sys2Proof.Machine

/-! ### Helpers -/

/-- The illustrative ROM of 95_test_vectors.md (IR): the usual digit masks at 0-9, the blank glyph at 10. IR leaves
every other entry unknown; `0x40` stands there for the tests, and no expected result below rests on it. -/
def irMask (i : Nat) : Byte :=
  ([0x3F, 0x06, 0x5B, 0x4F, 0x66, 0x6D, 0x7D, 0x07, 0x7F, 0x6F, 0x00] : List Byte).getD i 0x40

def irConfig (v : Variant) : BlockConfig where
  variant := v
  glyphRomClock := Vector.ofFn fun i => irMask i
  glyphRomGeneral := Vector.ofFn fun i => irMask i
  blankIdxClock := 10
  blankIdxGeneral := 10

/-- The reset state of an instance with IR, with what the host and the transport are going to do. -/
def start (v : Variant) (host : List HostInput) (answers : List Answer) : State :=
  { State.reset with config := irConfig v, host := host, answers := answers }

/-- The same with a buffer. -/
def startWith (buf : Vector BufWord 8) (answers : List Answer) : State :=
  { start .clock [] answers with buf := buf }

/-- The outcome is a next state of which `f` holds. -/
def nextHolds (o : Host.Outcome State Fault Refusal) (f : State → Bool) : Bool :=
  match o with
  | .next t => f t
  | .fault _ => false
  | .refused _ => false

/-- The outcome is the refusal of a reserved word for that reason. -/
def refusedFor (o : Host.Outcome State Fault Refusal) (why : ReservedReason) : Bool :=
  match o with
  | .refused r => r == .reservedWord why
  | .next _ => false
  | .fault _ => false

/-- The outcome is the lookup fault. -/
def faultsAt (o : Host.Outcome State Fault Refusal) (i : Nat) : Bool :=
  match o with
  | .fault f => f == .lookupOutOfRange i
  | .next _ => false
  | .refused _ => false

/-! ### Well-formedness (30_encoding.md R73): an ill-formed term for each check -/

theorem test_wf_refuses_pos_256 : (Instr.wdig 256 0).wf = false ∧ (Instr.wraw 256 0).wf = false := by decide
theorem test_wf_refuses_arg_33_bits :
    (Instr.wdig 0 (2 ^ 32)).wf = false ∧ (Instr.wraw 0 (2 ^ 32)).wf = false ∧ (Instr.blink (2 ^ 32)).wf = false := by
  decide
theorem test_wf_refuses_level_out_of_range :
    (Instr.bright (2 ^ 31)).wf = false ∧ (Instr.bright (-2 ^ 31 - 1)).wf = false := by decide
theorem test_wf_accepts_out_of_sbc_range :
    (Instr.wdig 5 1).wf = true ∧ (Instr.wraw 2 0x10000).wf = true ∧ (Instr.bright 99).wf = true ∧
      (Instr.blink 7).wf = true := by decide
theorem test_config_wf_refuses_blank_digit_and_lit_blank :
    ({ irConfig .clock with blankIdxClock := 9 } : BlockConfig).wf = false ∧
      ({ irConfig .clock with blankIdxClock := 21 } : BlockConfig).wf = false ∧
      ({ irConfig .general with blankIdxGeneral := 24 } : BlockConfig).wf = false ∧
      ({ irConfig .clock with blankIdxClock := 11 } : BlockConfig).wf = false := by decide

/-! ### Decoding: words written out from 30_encoding.md R60 and R64, and 95_test_vectors.md section 2.1 -/

theorem test_decode_clear : decode 0x0100000000000000 = .ok .clear := by decide
theorem test_decode_wdig : decode 0x0200010000000009 = .ok (.wdig 1 9) := by decide
theorem test_decode_wdig_all_ones : decode 0x0200FF00FFFFFFFF = .ok (.wdig 255 0xFFFFFFFF) := by decide
theorem test_decode_wraw : decode 0x0300020000000002 = .ok (.wraw 2 2) := by decide
theorem test_decode_wraw_17_bits : decode 0x0300000000010000 = .ok (.wraw 0 0x10000) := by decide
theorem test_decode_setup : decode 0x0400000000000000 = .ok .setup := by decide
theorem test_decode_bright : decode 0x0500000000000014 = .ok (.bright 20) := by decide
theorem test_decode_bright_negative :
    decode 0x05000000FFFFFFFF = .ok (.bright (-1)) ∧ decode 0x0500000080000000 = .ok (.bright (-2147483648)) := by
  decide
theorem test_decode_blink : decode 0x0600000000000002 = .ok (.blink 2) := by decide
theorem test_decode_flush : decode 0x0700000000000000 = .ok .flush := by decide
theorem test_decode_reserved_opcodes :
    decode 0x0000000000000000 = .error .opcode ∧ decode 0x0800000000000000 = .error .opcode ∧
      decode 0xFF00000000000000 = .error .opcode := by decide
theorem test_decode_reserved_fields :
    decode 0x0101000000000000 = .error .rsv1 ∧ decode 0x0200000100000000 = .error .rsv2 := by decide
theorem test_decode_unused_fields :
    decode 0x0100000000000001 = .error .unusedArg ∧ decode 0x0100010000000000 = .error .unusedPos ∧
      decode 0x0500010000000007 = .error .unusedPos ∧ decode 0x0600030000000001 = .error .unusedPos ∧
      decode 0x0700000000000001 = .error .unusedArg ∧ decode 0x0400000000000100 = .error .unusedArg := by decide

/-- Encodings of 95_test_vectors.md programs P1, P3 and P4. -/
theorem test_encode_words :
    encode (.wdig 4 4) = 0x0200040000000004 ∧ encode (.wraw 7 1) = 0x0300070000000001 ∧
      encode (.bright (-3)) = 0x05000000FFFFFFFD ∧ encode (.blink 0) = 0x0600000000000000 ∧
      encode .clear = 0x0100000000000000 ∧ encode .setup = 0x0400000000000000 ∧
      encode .flush = 0x0700000000000000 := by decide

theorem test_table_word_reaches_the_step :
    decodeTableWord 64 0x0300020000000002 = some (.wraw 2 2) ∧
      nextHolds (step (State.withFetchWord State.reset 64 0x0300020000000002)) (fun t => t.buf == #v[0, 0, 2, 0, 0, 0, 0, 0]) = true := by
  decide

/-! ### Each command, one step -/

/-- 95_test_vectors.md section 2.2. -/
theorem test_clear_keeps_status_and_log :
    nextHolds (exec .clear { startWith #v[0x003F, 0x0006, 0x0002, 0x004F, 0x0066, 0, 0, 0] [] with status := .initFail })
      (fun t => t.buf == Vector.replicate 8 0 && t.status == .initFail && t.txlog == []) = true := by decide

/-- 95_test_vectors.md section 2.3: the raw separator of CLOCK at the largest index, and the same command dropped one
index further. -/
theorem test_wdig_clock_separator :
    nextHolds (exec (.wdig 2 27) (start .clock [] [])) (fun t => t.buf == #v[0, 0, 0x001B, 0, 0, 0, 0, 0]) = true ∧
      nextHolds (exec (.wdig 2 28) (start .clock [] [])) (fun t => t == start .clock [] []) = true := by decide

/-- 95_test_vectors.md section 2.3: position 2 of GENERAL is encoded, and a digit position of CLOCK too. -/
theorem test_wdig_stores_the_glyph :
    nextHolds (exec (.wdig 2 2) (start .general [] [])) (fun t => t.buf == #v[0, 0, 0x005B, 0, 0, 0, 0, 0]) = true ∧
      nextHolds (exec (.wdig 1 9) (start .clock [] [])) (fun t => t.buf == #v[0, 0x006F, 0, 0, 0, 0, 0, 0]) = true := by
  decide

/-- 95_test_vectors.md section 2.4. -/
theorem test_wraw_largest_value :
    nextHolds (exec (.wraw 0 0xFFFF) (start .clock [] [])) (fun t => t.buf == #v[0xFFFF, 0, 0, 0, 0, 0, 0, 0]) = true := by
  decide

/-- 95_test_vectors.md section 2.4. -/
theorem test_wraw_drops :
    nextHolds (exec (.wraw 0 0x10000) (start .clock [] [])) (fun t => t == start .clock [] []) = true ∧
      nextHolds (exec (.wraw 5 0) (start .clock [] [])) (fun t => t == start .clock [] []) = true := by decide

/-- 95_test_vectors.md section 2.8. -/
theorem test_setup_init_fail :
    nextHolds (exec .setup (start .clock [] [.fail, .ok]))
      (fun t => t.status == .initFail && t.txlog == [⟨[0x21], .fail⟩] && t.answers == [.ok]) = true := by decide

/-- 95_test_vectors.md section 2.8. -/
theorem test_setup_flush_fails :
    nextHolds (exec .setup (startWith #v[0x0006, 0x005B, 0x0002, 0x004F, 0x0066, 0, 0, 0] [.ok, .fail]))
      (fun t => t.status == .xferFail && t.txlog ==
        [⟨[0x21], .ok⟩, ⟨[0, 0x06, 0, 0x5B, 0, 0x02, 0, 0x4F, 0, 0x66, 0, 0, 0, 0, 0, 0], .fail⟩]) = true := by decide

/-- 95_test_vectors.md section 2.5. -/
theorem test_bright_clamps :
    nextHolds (exec (.bright 16) (start .clock [] [.ok])) (fun t => t.txlog == [⟨[0xEF], .ok⟩] && t.status == .ok) = true ∧
      nextHolds (exec (.bright (-1)) (start .clock [] [.fail]))
        (fun t => t.txlog == [⟨[0xE0], .fail⟩] && t.status == .xferFail) = true := by decide

/-- 95_test_vectors.md section 2.5. -/
theorem test_bright_seven :
    nextHolds (exec (.bright 7) (start .clock [] [.ok])) (fun t => t.txlog == [⟨[0xE7], .ok⟩]) = true := by decide

/-- 95_test_vectors.md section 2.6. -/
theorem test_blink_rates :
    nextHolds (exec (.blink 3) (start .clock [] [.ok])) (fun t => t.txlog == [⟨[0x87], .ok⟩]) = true ∧
      nextHolds (exec (.blink 4) (start .clock [] [.fail]))
        (fun t => t.txlog == [⟨[0x81], .fail⟩] && t.status == .xferFail) = true := by decide

/-- 95_test_vectors.md section 2.7. -/
theorem test_flush_frame :
    nextHolds (exec .flush (startWith #v[0x1234, 0xABCD, 0x0002, 0x00FF, 0xFFFF, 0, 0, 0] [.ok]))
      (fun t => t.status == .ok && t.txlog ==
        [⟨[0x12, 0x34, 0xAB, 0xCD, 0x00, 0x02, 0x00, 0xFF, 0xFF, 0xFF, 0, 0, 0, 0, 0, 0], .ok⟩]) = true := by decide

/-- 20_memory.md R47 on 95_test_vectors.md section 2.7. -/
theorem test_deserialize : deserialize [0x12, 0x34, 0xAB, 0xCD] = [0x1234, 0xABCD] := by decide

/-- 10_state.md R23: the digit 1 of IR lights B and C alone. -/
theorem test_segments : ([.a, .b, .c, .d, .e, .f, .g, .h].filter (lights 0x06)) = [.b, .c] := by decide

/-- 40_glyph_encoder.md R85, conflict C2. -/
theorem test_known_letters :
    Variant.knownSymbol .clock 22 = some .letterR ∧ Variant.knownSymbol .general 22 = some .letterQ ∧
      Variant.knownSymbol .clock 24 = none ∧ Variant.knownSymbol .general 24 = some .letterT := by decide

/-! ### Witnesses: a state and operands that meet the hypotheses of each statement -/

theorem witness_DecodeOfEncodeIsTheCommand :
    (Instr.bright (-2147483648)).wf = true ∧ (Instr.bright 2147483647).wf = true ∧
      (Instr.wdig 255 4294967295).wf = true ∧ (Instr.wraw 255 4294967295).wf = true ∧
      (Instr.blink 4294967295).wf = true ∧ Instr.clear.wf = true := by decide

theorem witness_DecodedWordIsTheCommandsEncoding : decode 0x0500000080000000 = .ok (.bright (-2147483648)) := by decide

theorem witness_DecodeIffOpcodeRowMatches :
    rowMatches ⟨.wdig, 0x0200000000000000, 0xFFFF00FF00000000⟩ 0x0200FF00FFFFFFFF = true ∧
      (⟨.wdig, 0x0200000000000000, 0xFFFF00FF00000000⟩ : OpcodeRow) ∈ opcodeRows := by decide

/-- A witness for each kind of reserved word of 30_encoding.md R67. -/
theorem witness_ReservedWordsAreRefusedForEver :
    refusedFor (step (start .clock [.command 0] [])) .opcode = true ∧
      refusedFor (step (start .clock [.command 0x0800000000000000] [])) .opcode = true ∧
      refusedFor (step (start .clock [.command 0x0101000000000000] [])) .rsv1 = true ∧
      refusedFor (step (start .clock [.command 0x0200000100000000] [])) .rsv2 = true ∧
      refusedFor (step (start .clock [.command 0x0400000000000100] [])) .unusedArg = true ∧
      refusedFor (step (start .clock [.command 0x0700010000000000] [])) .unusedPos = true ∧
      refusedFor (step (start .clock [.command 0x0600030000000001] [])) .unusedPos = true ∧
      nextHolds (step (start .clock [.command 0x0100000000000000] [])) (fun _ => true) = true := by decide

theorem witness_StepRunsThePresentedCommand :
    (start .clock [.command 0x0700000000000000] []).host = .command 0x0700000000000000 :: [] ∧
      decode 0x0700000000000000 = .ok .flush := by decide

theorem witness_NothingHappensWithoutAHostInput : State.reset.host = [] := rfl

theorem witness_HostResetRestoresTheResetValues :
    ({ startWith #v[1, 2, 3, 4, 5, 0, 0, 0] [.ok] with host := [.reset] } : State).host = .reset :: [] := rfl

/-- Each side of each variant's bound. -/
theorem witness_LookupPortAnswersInRangeAndFaultsBeyond :
    nextHolds (step (start .clock [.lookup 27] [])) (fun t => t == start .clock [] []) = true ∧
      faultsAt (step (start .clock [.lookup 28] [])) 28 = true ∧
      nextHolds (step (start .general [.lookup 32] [])) (fun t => t == start .general [] []) = true ∧
      faultsAt (step (start .general [.lookup 33] [])) 33 = true := by decide

/-- Each clause of WDIG's pseudocode at its boundary. -/
theorem witness_WdigFollowsItsPseudocode :
    (4 < 5 ∧ (255 : Nat) < 2 ^ 8 ∧ (4294967295 : Nat) < 2 ^ 32) ∧
      (start .clock [] []).config.variant = .clock ∧ (start .general [] []).config.variant = .general ∧
      nextHolds (exec (.wdig 4 27) (start .clock [] [])) (fun t => t.status == .none) = true ∧
      nextHolds (exec (.wdig 4 28) (start .clock [] [])) (fun t => t == start .clock [] []) = true ∧
      nextHolds (exec (.wdig 0 33) (start .general [] [])) (fun t => t == start .general [] []) = true := by decide

theorem witness_WdigBeyondPositionFourIsANoOp :
    nextHolds (exec (.wdig 5 1) (start .clock [] [])) (fun t => t == start .clock [] []) = true ∧
      nextHolds (exec (.wdig 255 1) (start .clock [] [])) (fun t => t == start .clock [] []) = true := by decide

theorem witness_WdigIndexBoundIsTheTableSize :
    (start .clock [] []).config.variant = .clock ∧ 28 ≤ 28 ∧ (start .general [] []).config.variant = .general ∧
      33 ≤ 33 := by decide

theorem witness_WdigClockSeparatorStoresTheIndex :
    (start .clock [] []).config.variant = .clock ∧ 27 < 28 ∧ 28 ≤ 28 := by decide

theorem witness_WdigGeneralSeparatorStoresTheGlyph : (start .general [] []).config.variant = .general := by decide

theorem witness_WdigStoresTheEntryOfItsOwnTable :
    ((start .clock [] []).config.variant = .clock ∧ (4 : Fin 8).val ≤ 4 ∧ (4 : Fin 8) ≠ 2) ∧
      ((start .general [] []).config.variant = .general ∧ (2 : Fin 8).val ≤ 4) := by decide

theorem witness_WdigStoredWordHasAZeroHighByte :
    (4 : Fin 8).val ≤ 4 ∧ 27 < (if (start .clock [] []).config.variant = .clock then 28 else 33) ∧
      32 < (if (start .general [] []).config.variant = .clock then 28 else 33) := by decide

theorem witness_BlankGlyphWritesZero :
    (start .clock [] []).config.wf = true ∧ (start .general [] []).config.wf = true ∧ (0 : Fin 8).val ≤ 4 ∧
      (0 : Fin 8) ≠ 2 := by decide

/-- Each clause of WRAW's pseudocode at its boundary. -/
theorem witness_WrawFollowsItsPseudocode :
    (5 > 4 ∧ (0x10000 : Nat) > 0xFFFF ∧ 4 ≤ 4 ∧ 0xFFFF ≤ 0xFFFF) ∧
      nextHolds (exec (.wraw 4 0x1234) (start .general [] [])) (fun t => t.buf == #v[0, 0, 0, 0, 0x1234, 0, 0, 0]) = true := by
  decide

theorem witness_WrawBeyondPositionFourIsANoOp :
    nextHolds (exec (.wraw 7 1) (start .clock [] [])) (fun t => t == start .clock [] []) = true := by decide

theorem witness_WrawNeverTruncates :
    2 ^ 16 ≤ 0x10000 ∧ 0xFFFF < 2 ^ 16 ∧ (4 : Fin 8).val = 4 ∧ 4 ≤ 4 := by decide

theorem witness_WrawAcceptsDigitPositionsInBothVariants :
    (start .clock [] []).config.variant = .clock ∧ (start .general [] []).config.variant = .general ∧
      (4 : Fin 8).val ≤ 4 := by decide

theorem witness_BufferCommandsAffectBufAlone :
    isBufferCommand .clear = true ∧ isBufferCommand (.wdig 0 0) = true ∧ isBufferCommand (.wraw 0 0) = true := by decide

theorem witness_DroppedBufferCommandLeavesTheStateUnchanged :
    nextHolds (exec (.wdig 5 28) (start .clock [] [])) (fun t => t == start .clock [] []) = true ∧
      nextHolds (exec (.wraw 255 0x10000) (start .clock [] [])) (fun t => t == start .clock [] []) = true := by decide

theorem witness_OnlyProtocolCommandsWriteStatus :
    isBufferCommand .clear = true ∧ isBufferCommand .setup = false ∧ isBufferCommand (.bright 0) = false ∧
      isBufferCommand (.blink 0) = false ∧ isBufferCommand .flush = false := by decide

theorem unusedZero_start : UnusedZero (startWith #v[1, 2, 3, 4, 5, 0, 0, 0] [.ok]) := by
  intro p hp
  revert p
  decide

theorem witness_UnusedPositionsStayZero :
    UnusedZero (startWith #v[1, 2, 3, 4, 5, 0, 0, 0] [.ok]) ∧
      nextHolds (step { startWith #v[1, 2, 3, 4, 5, 0, 0, 0] [.ok] with host := [.command 0x0300040000001234] })
        (fun t => t.buf == #v[1, 2, 3, 4, 0x1234, 0, 0, 0]) = true :=
  ⟨unusedZero_start, by decide⟩

theorem witness_SetupSendsOscillatorOnThenFlushes :
    txAnswer (start .clock [] [.fail]) = .fail ∧ txAnswer (start .clock [] [.ok, .fail]) = .ok := by decide

theorem witness_BrightClampsTheLevel : (16 : Int) > 15 ∧ (-1 : Int) < 0 := by decide

theorem witness_BlinkTreatsAnyOtherRateAsZero : 3 < 4 ∧ 3 < 4294967295 := by decide

theorem witness_OneWriteCommandsReportEitherAnswer :
    nextHolds (exec (.bright 3) (start .clock [] [.fail])) (fun t => t.status == .xferFail) = true ∧
      nextHolds (exec (.blink 3) (start .clock [] [.ok])) (fun t => t.status == .ok) = true ∧
      nextHolds (exec .flush (start .clock [] [.fail])) (fun t => t.status == .xferFail) = true := by decide

/-- The commands RepeatedCommandSendsItsFrameAgain speaks of. -/
theorem witness_RepeatedCommandSendsItsFrameAgain :
    (Instr.flush = .flush ∨ (∃ level, Instr.flush = .bright level) ∨ ∃ rate, Instr.flush = .blink rate) ∧
      (Instr.bright 3 = .flush ∨ (∃ level, Instr.bright 3 = .bright level) ∨ ∃ rate, Instr.bright 3 = .blink rate) ∧
      (Instr.blink 3 = .flush ∨ (∃ level, Instr.blink 3 = .bright level) ∨ ∃ rate, Instr.blink 3 = .blink rate) :=
  ⟨.inl rfl, .inr (.inl ⟨3, rfl⟩), .inr (.inr ⟨3, rfl⟩)⟩

theorem witness_WritesPerCommand :
    isBufferCommand .clear = true ∧ isBufferCommand .flush = false ∧ Instr.flush ≠ .setup ∧
      txAnswer (start .clock [] [.fail]) = .fail ∧ txAnswer (start .clock [] [.ok]) ≠ .fail := by decide

/-- Shared by the statements whose hypothesis is that a step goes on. -/
theorem witness_NoStepWritesTheGlyphRom :
    nextHolds (step (start .clock [.command 0x0200010000000009] [])) (fun t => t.buf == #v[0, 0x006F, 0, 0, 0, 0, 0, 0]) = true := by
  decide

theorem witness_LogGrowsAtItsEndUnlessReset :
    nextHolds (step (start .clock [.command 0x0400000000000000] [.ok, .ok])) (fun t => t.txlog.length == 2) = true ∧
      nextHolds (step (start .clock [.reset] [])) (fun t => t.txlog.length == 0) = true := by decide

/-- Both clauses: a CLOCK instance whose next command is a WRAW to the separator, and the word `0x1234`, which is no
glyph. -/
theorem witness_DigitsHoldGlyphsWhileWrawIsForTheSeparator :
    DigitsHoldGlyphs (start .clock [.command 0x0300020000001234] []) ∧
      WrawForSeparatorOnly (start .clock [.command 0x0300020000001234] []) ∧
      nextHolds (step (start .clock [.command 0x0300020000001234] [])) (fun t => t.buf == #v[0, 0, 0x1234, 0, 0, 0, 0, 0]) = true ∧
      ∀ i mask, encodeGlyph (start .clock [] []).config i = some mask → (0x1234 : BufWord) ≠ glyphWord mask := by
  refine ⟨fun p _ _ => ?_, fun w rest pos value hh hd => ?_, by decide, fun i mask _ => ?_⟩
  · left
    revert p
    decide
  · cases hh
    rw [show decode 0x0300020000001234 = .ok (.wraw 2 0x1234) from by decide] at hd
    cases hd
    rfl
  · exact (by decide : ∀ m : Byte, (0x1234 : BufWord) ≠ glyphWord m) mask

theorem witness_OnlyLegalFramesAreSent :
    UnusedZero (startWith #v[1, 2, 3, 4, 5, 0, 0, 0] [.ok]) ∧
      nextHolds (step { startWith #v[1, 2, 3, 4, 5, 0, 0, 0] [.ok] with host := [.command 0x0700000000000000] })
        (fun t => t.txlog.length == 1) = true :=
  ⟨unusedZero_start, by decide⟩

theorem witness_StatusReportsTheLogInEveryStep :
    (start .clock [] []).status = logStatus (start .clock [] []).txlog ∧
      logStatus [⟨[0x21], .fail⟩] = .initFail ∧ logStatus [⟨[0xE0], .fail⟩] = .xferFail ∧
      logStatus [⟨[0x81], .ok⟩] = .ok ∧
      nextHolds (step (start .clock [.command 0x0400000000000000] [.fail])) (fun t => t.status == .initFail) = true := by
  decide

theorem witness_FlushSeesEveryEarlierBufferWrite :
    (start .clock [.command 0x0300020000000002, .command 0x0700000000000000] []).host =
        .command 0x0300020000000002 :: .command 0x0700000000000000 :: [] ∧
      decode 0x0300020000000002 = .ok (.wraw 2 2) ∧ isBufferCommand (.wraw 2 2) = true := by decide

theorem witness_AnswersNeverReachTheBuffer :
    (start .clock [] [.ok]).buf = (start .clock [] [.fail]).buf ∧
      (start .clock [] [.ok]).config = (start .clock [] [.fail]).config ∧
      (start .clock [] [.ok]).host = (start .clock [] [.fail]).host ∧ start .clock [] [.ok] ≠ start .clock [] [.fail] := by
  decide

/-- A host that presents a buffer command, a flush, a reset and a query in range keeps its duties; a reserved word
or a query out of range breaks them. -/
theorem witness_AHostKeepingItsDutiesNeverMeetsAStop :
    hostDuties (start .clock [.command 0x0300020000000002, .command 0x0700000000000000, .reset, .lookup 27] []) = true ∧
      Machine.Inv (start .clock [.command 0x0300020000000002, .command 0x0700000000000000, .reset, .lookup 27] []) ∧
      hostDuties (start .clock [.command 0] []) = false ∧ hostDuties (start .clock [.lookup 28] []) = false := by
  refine ⟨by decide, ⟨?_, rfl, ?_, by decide⟩, by decide, by decide⟩
  · intro p hp
    revert p
    decide
  · intro r hr
    cases hr

end Sys2Proof.Tests
end

namespace Sys2Proof.Machine

/-! ## Commands and steps

What a command leaves in each field, said once, and the one case split over a step from which every invariant here
follows. -/

@[simp] theorem readBuf_reset (p : Fin 8) : readBuf State.reset p = 0 := readBuf_hostReset p State.reset

/-! ### A buffer command changes BUF alone (41_buffer.md R100) -/

theorem onlyBufDiffers_writeDigit (pos idx : Nat) (s : State) : OnlyBufDiffers s (writeDigit pos idx s) := by
  obtain ⟨p, mask, -, -, h⟩ | ⟨-, h⟩ := writeDigit_cases pos idx s
  · rw [h]; exact onlyBufDiffers_writeBuf ..
  · rw [h]; exact onlyBufDiffers_refl s

theorem onlyBufDiffers_writeRaw (pos value : Nat) (s : State) : OnlyBufDiffers s (writeRaw pos value s) := by
  obtain ⟨p, v, -, -, h⟩ | ⟨-, h⟩ := writeRaw_cases pos value s
  · rw [h]; exact onlyBufDiffers_writeBuf ..
  · rw [h]; exact onlyBufDiffers_refl s

theorem onlyBufDiffers_effect {i : Instr} (hi : isBufferCommand i = true) (s : State) :
    OnlyBufDiffers s (effect i s) := by
  cases i with
  | clear => exact ⟨rfl, rfl, rfl, rfl, rfl, rfl⟩
  | wdig pos idx => exact onlyBufDiffers_writeDigit pos idx s
  | wraw pos value => exact onlyBufDiffers_writeRaw pos value s
  | setup | bright | blink | flush => cases hi

/-! ### A protocol command sends frames and keeps BUF and the parameters (42_protocol.md R110-R127) -/

theorem sent_txWrite (f : Frame) (s : State) : Sent s (txWrite f s).2 [⟨f, txAnswer s⟩] :=
  ⟨rfl, by simp, rfl, rfl, rfl, rfl⟩

theorem Sent.trans {s t u : State} {new more : List TxRecord} (hst : Sent s t new) (htu : Sent t u more) :
    Sent s u (new ++ more) where
  txlog := by rw [htu.txlog, hst.txlog, List.append_assoc]
  answers := by rw [htu.answers, hst.answers, List.drop_drop, List.length_append]
  draws := by rw [htu.draws, hst.draws, List.length_append, Nat.add_assoc]
  buf := htu.buf.trans hst.buf
  config := htu.config.trans hst.config
  host := htu.host.trans hst.host

theorem Sent.setStatus {s t : State} {new : List TxRecord} (h : Sent s t new) (v : Status) :
    Sent s (setStatus v t) new :=
  ⟨h.txlog, h.answers, h.draws, h.buf, h.config, h.host⟩

theorem effect_setup_of_ok {s : State} (ha : txAnswer s = .ok) :
    effect .setup s = sendAndReport (dataframe s.buf) (txWrite [oscillatorByte] s).2 := by
  simp only [effect, ha, setupRest, txWrite_buf]

theorem effect_setup_of_fail {s : State} (ha : txAnswer s = .fail) :
    effect .setup s = setStatus .initFail (txWrite [oscillatorByte] s).2 := by
  simp only [effect, ha, setupRest]

theorem sent_effect {i : Instr} (hi : isBufferCommand i = false) (s : State) : ∃ new, Sent s (effect i s) new := by
  cases i with
  | clear | wdig | wraw => cases hi
  | setup =>
    cases ha : txAnswer s with
    | ok =>
      rw [effect_setup_of_ok ha]
      exact ⟨_, (sent_txWrite ..).trans (sent_sendAndReport ..)⟩
    | fail =>
      rw [effect_setup_of_fail ha]
      exact ⟨_, (sent_txWrite ..).setStatus _⟩
  | bright | blink | flush => exact ⟨_, sent_sendAndReport ..⟩

theorem effect_buf_of_protocol {i : Instr} (hi : isBufferCommand i = false) (s : State) :
    (effect i s).buf = s.buf := by
  obtain ⟨new, hsent⟩ := sent_effect hi s
  exact hsent.buf

/-! ### What any command does -/

@[simp] theorem effect_config (i : Instr) (s : State) : (effect i s).config = s.config := by
  cases hi : isBufferCommand i
  · obtain ⟨new, hsent⟩ := sent_effect hi s
    exact hsent.config
  · exact (onlyBufDiffers_effect hi s).config

/-- All a command can do to BUF: nothing, all zero, or one word at a position 0 to 4: WDIG's glyph (or index), or
WRAW's value. -/
theorem effect_buf_cases (i : Instr) (s : State) :
    (effect i s).buf = s.buf ∨
    effect i s = zeroBuf s ∨
    (∃ pos idx p mask, i = .wdig pos idx ∧ writablePos pos = some p ∧ encodeGlyph s.config idx = some mask ∧
      effect i s = writeBuf p (digitWord s.config.variant p idx mask) s) ∨
    (∃ pos value p v, i = .wraw pos value ∧ writablePos pos = some p ∧ rawWord value = some v ∧
      effect i s = writeBuf p v s) := by
  cases i with
  | clear => exact .inr (.inl rfl)
  | wdig pos idx =>
    obtain ⟨p, mask, hp, hm, h⟩ | ⟨-, h⟩ := writeDigit_cases pos idx s
    · exact .inr (.inr (.inl ⟨pos, idx, p, mask, rfl, hp, hm, h⟩))
    · exact .inl (congrArg State.buf h)
  | wraw pos value =>
    obtain ⟨p, v, hp, hv, h⟩ | ⟨-, h⟩ := writeRaw_cases pos value s
    · exact .inr (.inr (.inr ⟨pos, value, p, v, rfl, hp, hv, h⟩))
    · exact .inl (congrArg State.buf h)
  | setup | bright | blink | flush => exact .inl (effect_buf_of_protocol rfl s)

/-! ### An invariant over a step -/

/-- A property that taking an input, a reset and the presented command keep is kept by every step that goes on. -/
theorem step_keeps {P : State → Prop} {s t : State} (hs : P s) (h : step s = .next t)
    (htake : ∀ rest u, P u → P (setHost rest u)) (hreset : ∀ u, P u → P (hostReset u))
    (hcommand : ∀ w rest i, s.host = .command w :: rest → decode w = .ok i →
      P (setHost rest s) → P (effect i (setHost rest s))) : P t := by
  obtain ⟨-, rfl⟩ | ⟨w, i, rest, hh, hd, rfl⟩ | ⟨rest, -, rfl⟩ | ⟨-, rest, -, -, rfl⟩ := step_cases h
  · exact hs
  · exact hcommand w rest i hh hd (htake rest s hs)
  · exact hreset _ (htake rest s hs)
  · exact htake rest s hs

/-! ## STATUS (10_state.md R26, R27)

What each command leaves in it, and that it always reports TXLOG. -/

@[simp] theorem serialize_length (buf : Vector BufWord 8) : (serialize buf).length = 16 := by
  simp [serialize, buf_toList, wordBytes]

/-! ### No frame but SETUP's first is the oscillator-on byte

Bit 7 of a brightness or blink byte is set, and a data frame has sixteen bytes. -/

theorem brightByte_ne_oscillatorByte (l : Nat) : brightByte l ≠ oscillatorByte := by
  intro h
  have hbit := congrArg (·.getLsbD 7) h
  simp [brightByte, oscillatorByte] at hbit

theorem blinkByte_ne_oscillatorByte (r : Nat) : blinkByte r ≠ oscillatorByte := by
  intro h
  have hbit := congrArg (·.getLsbD 7) h
  simp [blinkByte, oscillatorByte] at hbit

theorem dataframe_ne_oscillator (buf : Vector BufWord 8) : dataframe buf ≠ [oscillatorByte] := by
  intro h
  have hlen := congrArg List.length h
  simp [dataframe_eq] at hlen

/-! ### The report of a command -/

/-- A protocol command leaves STATUS at the report of the log it leaves, whatever both were before. -/
theorem effect_status_eq_logStatus {i : Instr} (hi : isBufferCommand i = false) (s : State) :
    (effect i s).status = logStatus (effect i s).txlog := by
  cases i with
  | clear | wdig | wraw => cases hi
  | setup =>
    cases ha : txAnswer s with
    | ok =>
      rw [effect_setup_of_ok ha]
      exact logStatus_sendAndReport _ (dataframe_ne_oscillator _) _
    | fail => simp [effect_setup_of_fail ha, logStatus_append, ha]
  | bright level => exact logStatus_sendAndReport _ (by simp [brightByte_ne_oscillatorByte]) s
  | blink rate => exact logStatus_sendAndReport _ (by simp [blinkByte_ne_oscillatorByte]) s
  | flush => exact logStatus_sendAndReport _ (dataframe_ne_oscillator _) s

/-- Every command keeps STATUS the report of TXLOG: a buffer command touches neither. -/
theorem effect_keeps_status_report (i : Instr) {s : State} (hs : s.status = logStatus s.txlog) :
    (effect i s).status = logStatus (effect i s).txlog := by
  cases hi : isBufferCommand i
  · exact effect_status_eq_logStatus hi s
  · rw [(onlyBufDiffers_effect hi s).status, (onlyBufDiffers_effect hi s).txlog, hs]

/-- Settles O52: a step takes an input (which touches neither STATUS nor TXLOG), resets both, or runs a command. -/
theorem statusReportsTheLogInEveryStep : Obligations.StatusReportsTheLogInEveryStep := by
  intro s t hs h
  exact step_keeps (P := fun u => u.status = logStatus u.txlog) hs h
    (fun _ _ hu => hu) (fun _ _ => rfl) (fun _ _ i _ _ hu => effect_keeps_status_report i hu)

/-! ### Which commands write STATUS -/

theorem transferStatus_ne_none (a : Answer) : transferStatus a ≠ .none := by cases a <;> simp [transferStatus]

theorem effect_status_ne_none {i : Instr} (hi : isBufferCommand i = false) (s : State) :
    (effect i s).status ≠ .none := by
  cases i with
  | clear | wdig | wraw => cases hi
  | setup =>
    cases ha : txAnswer s with
    | ok =>
      rw [effect_setup_of_ok ha]
      exact transferStatus_ne_none _
    | fail => simp [effect_setup_of_fail ha]
  | bright | blink | flush => exact transferStatus_ne_none _

/-- A protocol command's report does not depend on what STATUS held: no transport answer and no frame does. -/
theorem effect_status_setStatus {i : Instr} (hi : isBufferCommand i = false) (v : Status) (s : State) :
    (effect i (setStatus v s)).status = (effect i s).status := by
  have hfirst : txAnswer (setStatus v s) = txAnswer s := txAnswer_congr rfl rfl
  cases i with
  | clear | wdig | wraw => cases hi
  | setup =>
    cases ha : txAnswer s with
    | ok =>
      rw [effect_setup_of_ok ha, effect_setup_of_ok (hfirst.trans ha)]
      exact congrArg transferStatus (txAnswer_congr rfl rfl)
    | fail => rw [effect_setup_of_fail ha, effect_setup_of_fail (hfirst.trans ha)]; rfl
  | bright | blink | flush => exact congrArg transferStatus hfirst

/-- Settles O29: a buffer command changes BUF alone, and a protocol command's report comes from the answers. -/
theorem onlyProtocolCommandsWriteStatus : Obligations.OnlyProtocolCommandsWriteStatus := by
  intro i s
  refine ⟨effect i s, exec_eq_effect i s, fun hi => (onlyBufDiffers_effect hi s).status, fun hi => ?_⟩
  exact ⟨effect_status_ne_none hi s,
    fun v => ⟨effect i (setStatus v s), exec_eq_effect i _, effect_status_setStatus hi v s⟩⟩

/-- Settles O13, by cases on the four codes and the four names. -/
theorem statusCodesAreTheFourOfTheTable : Obligations.StatusCodesAreTheFourOfTheTable := by
  refine ⟨rfl, rfl, rfl, rfl, by decide, fun v => ?_⟩
  cases v <;> rfl

/-! ## BUF by position (10_state.md R24, R25)

Positions 5 to 7 stay zero, and the digit positions hold glyphs. -/

/-! ### Positions 5 to 7 -/

theorem unusedZero_reset : UnusedZero State.reset := fun p _ => readBuf_reset p

/-- A store at a position a command may write leaves positions 5 to 7 alone. -/
theorem unusedZero_writeBuf {pos : Nat} {p : Fin 8} (hp : writablePos pos = some p) (v : BufWord) {s : State}
    (hs : UnusedZero s) : UnusedZero (writeBuf p v s) := by
  intro q hq
  obtain ⟨hpos, hle⟩ := writablePos_eq_some hp
  rw [readBuf_writeBuf_other (by rintro rfl; omega)]
  exact hs q hq

theorem unusedZero_effect (i : Instr) {s : State} (hs : UnusedZero s) : UnusedZero (effect i s) := by
  obtain h | h | ⟨_, _, _, _, -, hp, -, h⟩ | ⟨_, _, _, _, -, hp, -, h⟩ := effect_buf_cases i s
  · intro q hq
    rw [readBuf_congr h]
    exact hs q hq
  · rw [h]
    exact fun q _ => readBuf_zeroBuf q s
  · rw [h]
    exact unusedZero_writeBuf hp _ hs
  · rw [h]
    exact unusedZero_writeBuf hp _ hs

theorem unusedZero_step {s t : State} (hs : UnusedZero s) (h : step s = .next t) : UnusedZero t :=
  step_keeps hs h (fun _ _ hu => hu) (fun u _ q _ => readBuf_hostReset q u)
    (fun _ _ i _ _ hu => unusedZero_effect i hu)

/-- Bytes 10 to 15 of the serialization are the words at positions 5 to 7. -/
theorem serialize_drop_ten (s : State) :
    (serialize s.buf).drop 10 = wordBytes (readBuf s 5) ++ wordBytes (readBuf s 6) ++ wordBytes (readBuf s 7) := by
  simp [serialize, buf_toList, wordBytes, readBuf, Vector.get_eq_getElem]

theorem serialize_unused_zero {s : State} (hs : UnusedZero s) :
    (serialize s.buf).drop 10 = List.replicate 6 0 := by
  rw [serialize_drop_ten, hs 5 (by decide), hs 6 (by decide), hs 7 (by decide)]
  decide

/-- Settles O30: no command stores beyond position 4, and bytes 10 to 15 are the words beyond it. -/
theorem unusedPositionsStayZero : Obligations.UnusedPositionsStayZero :=
  ⟨unusedZero_reset, fun _ _ => unusedZero_step, fun _ => serialize_unused_zero⟩

/-! ### The digit positions -/

/-- At a digit position WDIG stores the glyph, in either variant (41_buffer.md R91). -/
theorem digitWord_of_ne_two {p : Fin 8} (hp : p ≠ 2) (v : Variant) (idx : Nat) (mask : Byte) :
    digitWord v p idx mask = glyphWord mask := by simp [digitWord, hp]

/-- A command that is no WRAW to a digit position keeps zero or a glyph at every digit position. -/
theorem digitsHoldGlyphs_effect {i : Instr} (hraw : ∀ pos value, i = .wraw pos value → pos = 2) {s : State}
    (hs : DigitsHoldGlyphs s) : DigitsHoldGlyphs (effect i s) := by
  intro q hq hq2
  rw [effect_config]
  obtain h | h | ⟨pos, idx, p, mask, -, -, hm, h⟩ | ⟨pos, value, p, v, hi, hp, -, h⟩ := effect_buf_cases i s
  · rw [readBuf_congr h]
    exact hs q hq hq2
  · rw [h]
    exact .inl (readBuf_zeroBuf q s)
  · rw [h, readBuf_writeBuf]
    split
    next hqp => exact .inr ⟨idx, mask, hm, digitWord_of_ne_two (hqp ▸ hq2) ..⟩
    next => exact hs q hq hq2
  · obtain ⟨hpos, -⟩ := writablePos_eq_some hp
    have hp2 : p = 2 := Fin.ext (hpos.trans (hraw pos value hi))
    rw [h, readBuf_writeBuf_other (hp2 ▸ hq2)]
    exact hs q hq hq2

/-- WRAW at a position 0 to 4 stores any 16-bit word (41_buffer.md R99). -/
theorem exec_wraw_of_le {p : Fin 8} (hp : p.val ≤ 4) (v : BufWord) (s : State) :
    exec (.wraw p v.toNat) s = .next (writeBuf p v s) := by
  have hv : v.toNat ≤ 0xFFFF := by have := v.isLt; omega
  simp [exec, execWraw, writeRaw, writablePos_of_le hp, rawWord_of_le hv]

/-- Settles O56: no command but WRAW stores a word that is neither zero nor a glyph at a digit position, and WRAW
stores any. -/
theorem digitsHoldGlyphsWhileWrawIsForTheSeparator :
    Obligations.DigitsHoldGlyphsWhileWrawIsForTheSeparator := by
  constructor
  · intro s t hs hraw h
    refine step_keeps hs h (fun _ _ hu => hu) (fun u _ q _ _ => .inl (readBuf_hostReset q u)) ?_
    intro w rest i hh hd hu
    exact digitsHoldGlyphs_effect (fun pos value hi => hraw w rest pos value hh (hi ▸ hd)) hu
  · intro s p v hp hp2 hv hno
    refine ⟨writeBuf p v s, exec_wraw_of_le hp v s, fun hdigits => ?_⟩
    have hword := hdigits p hp hp2
    rw [readBuf_writeBuf_same, writeBuf_config] at hword
    obtain hzero | ⟨i, mask, hm, hglyph⟩ := hword
    · exact hv hzero
    · exact hno i mask hm hglyph

/-! ## The reset state (10_state.md R35, R36) and the parameters (10_state.md R28; 40_glyph_encoder.md R84) -/

/-! ### The blank glyph of the parameters at reset -/

/-- The indices at which the spec names no symbol in CLOCK's table (40_glyph_encoder.md R83, R85, R88). -/
theorem knownSymbol_clock_eq_none_iff (i : Nat) :
    Variant.clock.knownSymbol i = none ↔ 10 ≤ i ∧ ¬ (21 ≤ i ∧ i ≤ 23) := by
  unfold Variant.knownSymbol
  split
  case isTrue hdigit => exact iff_of_false (by simp) (by omega)
  case isFalse hdigit =>
    -- an arm that names a letter has a numeral for index; the arm left is the one for every other index
    split <;> simp_all
    omega

/-- The indices at which the spec names no symbol in GENERAL's table (40_glyph_encoder.md R83, R85, R88). -/
theorem knownSymbol_general_eq_none_iff (i : Nat) :
    Variant.general.knownSymbol i = none ↔ 10 ≤ i ∧ ¬ (21 ≤ i ∧ i ≤ 24) := by
  unfold Variant.knownSymbol
  split
  case isTrue hdigit => exact iff_of_false (by simp) (by omega)
  case isFalse hdigit =>
    -- an arm that names a letter has a numeral for index; the arm left is the one for every other index
    split <;> simp_all
    omega

theorem blankIdxClock_range :
    10 ≤ Config.blankIdxClock.val ∧ ¬ (21 ≤ Config.blankIdxClock.val ∧ Config.blankIdxClock.val ≤ 23) := by
  unfold Config.blankIdxClock
  split <;> dsimp only <;> omega

theorem blankIdxGeneral_range :
    10 ≤ Config.blankIdxGeneral.val ∧ ¬ (21 ≤ Config.blankIdxGeneral.val ∧ Config.blankIdxGeneral.val ≤ 24) := by
  unfold Config.blankIdxGeneral
  split <;> dsimp only <;> omega

theorem glyphRomClock_blank : Config.glyphRomClock.get Config.blankIdxClock = 0 := by
  simp [Config.glyphRomClock, Vector.get_eq_getElem]

theorem glyphRomGeneral_blank : Config.glyphRomGeneral.get Config.blankIdxGeneral = 0 := by
  simp [Config.glyphRomGeneral, Vector.get_eq_getElem]

theorem blankGlyphOk_clock :
    blankGlyphOk .clock Config.blankIdxClock (Config.glyphRomClock.get Config.blankIdxClock) = true := by
  simp [blankGlyphOk, glyphRomClock_blank, (knownSymbol_clock_eq_none_iff _).mpr blankIdxClock_range]

theorem blankGlyphOk_general :
    blankGlyphOk .general Config.blankIdxGeneral (Config.glyphRomGeneral.get Config.blankIdxGeneral) = true := by
  simp [blankGlyphOk, glyphRomGeneral_blank, (knownSymbol_general_eq_none_iff _).mpr blankIdxGeneral_range]

/-- The parameters at reset are well formed in either variant. -/
theorem block_wf : Config.block.wf = true := by
  unfold BlockConfig.wf
  split
  · exact blankGlyphOk_clock
  · exact blankGlyphOk_general

/-! ### Reset -/

/-- Settles O9, field by field of `State.reset` and `hostReset`. -/
theorem resetLeavesTheSpecsValues : Obligations.ResetLeavesTheSpecsValues :=
  ⟨readBuf_reset, rfl, rfl, fun s => ⟨rfl, rfl, fun p => readBuf_hostReset p s, rfl, rfl⟩⟩

/-- Settles O10: the log is empty at reset, so STATUS and the frames have nothing to report. -/
theorem resetMeetsTheInvariant : Obligations.ResetMeetsTheInvariant where
  unused := unusedZero_reset
  reports := rfl
  frames := by
    intro r hr
    cases hr
  config := block_wf

theorem dataframe_reset : dataframe State.reset.buf = List.replicate 16 0 := by decide

/-- Settles O11: FLUSH sends the data frame of the zero buffer, and the log it adds to is empty. -/
theorem flushAfterResetSendsSixteenZeroBytes : Obligations.FlushAfterResetSendsSixteenZeroBytes := by
  refine ⟨effect .flush State.reset, txAnswer State.reset, exec_eq_effect _ _, ?_, readBuf_reset⟩
  rw [← dataframe_reset]
  rfl

/-! ### The parameters -/

/-- Settles O49: neither taking an input, nor a reset, nor a command writes the parameters. -/
theorem noStepWritesTheGlyphRom : Obligations.NoStepWritesTheGlyphRom := by
  intro s t h
  exact step_keeps (P := fun u => u.config = s.config) rfl h
    (fun _ _ hu => hu) (fun _ hu => hu) (fun _ _ i _ _ hu => (effect_config i _).trans hu)

end Sys2Proof.Machine

namespace Sys2Proof.Machine

/-! ## The serializer (20_memory.md R46, R47)

Both directions hold of any list of words, by induction on it. -/

/-- Bytes `2k` and `2k + 1` of the words' bytes are the high and the low byte of word `k`. -/
theorem flatMap_wordBytes_getElem? (words : List BufWord) (k : Nat) :
    (words.flatMap wordBytes)[2 * k]? = words[k]?.map (bitField · 8 8) ∧
      (words.flatMap wordBytes)[2 * k + 1]? = words[k]?.map (bitField · 0 8) := by
  induction words generalizing k with
  | nil => exact ⟨rfl, rfl⟩
  | cons v words ih =>
    cases k with
    | zero => exact ⟨rfl, rfl⟩
    | succ k => exact ih k

theorem deserialize_flatMap_wordBytes (words : List BufWord) : deserialize (words.flatMap wordBytes) = words := by
  induction words with
  | nil => rfl
  | cons v words ih => exact congrArg₂ List.cons (joinBytes_split v) ih

theorem buf_toList_getElem? (s : State) (p : Fin 8) : s.buf.toList[p.val]? = some (readBuf s p) := by
  simp [readBuf, Vector.get_eq_getElem]

theorem serialize_getElem? (s : State) (p : Fin 8) :
    (serialize s.buf)[2 * p.val]? = some (bitField (readBuf s p) 8 8) ∧
      (serialize s.buf)[2 * p.val + 1]? = some (bitField (readBuf s p) 0 8) := by
  have hbytes := flatMap_wordBytes_getElem? s.buf.toList p
  rwa [buf_toList_getElem?] at hbytes

/-- Settles O31: every word gives its high byte and then its low byte, and the port is the serialization. -/
theorem serializeIsBigEndianWordByWord : Obligations.SerializeIsBigEndianWordByWord :=
  fun s => ⟨serialize_length s.buf, serialize_getElem? s, rfl⟩

/-- Settles O32: joining the two bytes of a word gives it back, word by word. -/
theorem serializeIsInvertible : Obligations.SerializeIsInvertible := by
  intro s
  refine ⟨deserialize_flatMap_wordBytes _, fun p => ?_⟩
  obtain ⟨hhigh, hlow⟩ := serialize_getElem? s p
  exact ⟨_, _, hhigh, hlow, (joinBytes_split (readBuf s p)).symm⟩

/-! ## The same command again (20_memory.md R52; 42_protocol.md R111) -/

/-- FLUSH, BRIGHT and BLINK each send one frame, which depends on their operand and BUF alone. -/
theorem effect_eq_sendAndReport {i : Instr}
    (hi : i = .flush ∨ (∃ level, i = .bright level) ∨ ∃ rate, i = .blink rate) (buf : Vector BufWord 8) :
    ∃ frame, ∀ s : State, s.buf = buf → effect i s = sendAndReport frame s := by
  obtain rfl | ⟨level, rfl⟩ | ⟨rate, rfl⟩ := hi
  · exact ⟨dataframe buf, fun s hs => hs ▸ rfl⟩
  · exact ⟨_, fun _ _ => rfl⟩
  · exact ⟨_, fun _ _ => rfl⟩

/-- Two writes of one frame are logged with the two answers that come next. -/
theorem sendAndReport_twice_txlog {s : State} {a b : Answer} {rest : List Answer}
    (h : s.answers = a :: b :: rest) (f : Frame) :
    (sendAndReport f (sendAndReport f s)).txlog = s.txlog ++ [⟨f, a⟩, ⟨f, b⟩] := by
  have ha : txAnswer s = a := txAnswer_cons a (b :: rest) s h
  have hb : txAnswer (sendAndReport f s) = b := txAnswer_cons b rest _ (by simp [h])
  simp [ha, hb]

/-- Settles O44: the first write keeps BUF, so the frame of the second is the same; each write takes its own answer. -/
theorem repeatedCommandSendsItsFrameAgain : Obligations.RepeatedCommandSendsItsFrameAgain := by
  intro s a b rest i hi
  obtain ⟨frame, hsend⟩ := effect_eq_sendAndReport hi s.buf
  have hexec (u : State) (hu : u.buf = s.buf) : exec i u = .next (sendAndReport frame u) :=
    exec_eq_next.mpr (hsend u hu).symm
  refine ⟨_, _, frame, hexec _ rfl, hexec _ rfl, ?_, rfl⟩
  exact sendAndReport_twice_txlog rfl frame

/-! ## TXLOG grows at its end (20_memory.md R54; 10_state.md R31) -/

/-- No command issues more than two transport writes. -/
theorem effect_draws_le (i : Instr) (s : State) : (effect i s).draws ≤ s.draws + 2 := by
  cases i with
  | clear | wdig | wraw => rw [(onlyBufDiffers_effect rfl s).draws]; exact Nat.le_add_right ..
  | setup =>
    cases ha : txAnswer s with
    | ok => rw [effect_setup_of_ok ha]; exact Nat.le_refl _
    | fail => rw [effect_setup_of_fail ha]; exact Nat.le_succ _
  | bright | blink | flush => exact Nat.le_succ _

/-- A command appends at most two entries to TXLOG: one for every write it issues. -/
theorem effect_txlog_append (i : Instr) (s : State) :
    ∃ new, (effect i s).txlog = s.txlog ++ new ∧ new.length ≤ 2 := by
  cases hi : isBufferCommand i
  · obtain ⟨new, hsent⟩ := sent_effect hi s
    have hdraws := effect_draws_le i s
    rw [hsent.draws] at hdraws
    exact ⟨new, hsent.txlog, Nat.le_of_add_le_add_left hdraws⟩
  · exact ⟨[], by simp [(onlyBufDiffers_effect hi s).txlog], Nat.zero_le _⟩

/-- Settles O50: of what a step can do, only a command appends and only a reset removes. -/
theorem logGrowsAtItsEndUnlessReset : Obligations.LogGrowsAtItsEndUnlessReset := by
  intro s t h
  obtain ⟨-, rfl⟩ | ⟨w, i, rest, -, -, rfl⟩ | ⟨rest, hh, -⟩ | ⟨i, rest, -, -, rfl⟩ := step_cases h
  · exact .inr ⟨[], by simp⟩
  · exact .inr (effect_txlog_append i (setHost rest s))
  · exact .inl ⟨rest, hh⟩
  · exact .inr ⟨[], by simp⟩

/-! ## What reaches BUF (20_memory.md R43, R51, R55)

A command's effect on BUF depends on BUF and the parameters alone. -/

theorem writeDigit_buf_congr {s s' : State} (hbuf : s.buf = s'.buf) (hconfig : s.config = s'.config)
    (pos idx : Nat) : (writeDigit pos idx s).buf = (writeDigit pos idx s').buf := by
  unfold writeDigit
  rw [hconfig]
  cases writablePos pos <;> cases encodeGlyph s'.config idx <;> simp [hbuf]

theorem writeRaw_buf_congr {s s' : State} (hbuf : s.buf = s'.buf) (pos value : Nat) :
    (writeRaw pos value s).buf = (writeRaw pos value s').buf := by
  unfold writeRaw
  cases writablePos pos <;> cases rawWord value <;> simp [hbuf]

theorem effect_buf_congr {s s' : State} (hbuf : s.buf = s'.buf) (hconfig : s.config = s'.config) (i : Instr) :
    (effect i s).buf = (effect i s').buf := by
  cases i with
  | clear => rfl
  | wdig pos idx => exact writeDigit_buf_congr hbuf hconfig pos idx
  | wraw pos value => exact writeRaw_buf_congr hbuf pos value
  | setup | bright | blink | flush => rw [effect_buf_of_protocol rfl, effect_buf_of_protocol rfl, hbuf]

/-- What the host does next never reaches BUF. -/
theorem effect_setHost_buf (i : Instr) (rest : List HostInput) (s : State) :
    (effect i (setHost rest s)).buf = (effect i s).buf :=
  effect_buf_congr (setHost_buf rest s) (setHost_config rest s) i

/-- No command takes a host input: the step has taken its word. -/
@[simp] theorem effect_host (i : Instr) (s : State) : (effect i s).host = s.host := by
  cases hi : isBufferCommand i
  · obtain ⟨new, hsent⟩ := sent_effect hi s
    exact hsent.host
  · exact (onlyBufDiffers_effect hi s).host

/-! ### The step for each host input, and the run by its first step -/

theorem step_of_nil {s : State} (hh : s.host = []) : step s = .next s := by simp [step, hh, idle]

theorem step_of_command {s : State} {w : CmdWord} {rest : List HostInput} {i : Instr}
    (hh : s.host = .command w :: rest) (hd : decode w = .ok i) : step s = .next (effect i (setHost rest s)) := by
  simp [step, hh, hd, exec_eq_effect]

theorem step_of_reserved {s : State} {w : CmdWord} {rest : List HostInput} {why : ReservedReason}
    (hh : s.host = .command w :: rest) (hd : decode w = .error why) : step s = .refused (.reservedWord why) := by
  simp [step, hh, hd]

theorem step_of_reset {s : State} {rest : List HostInput} (hh : s.host = .reset :: rest) :
    step s = .next (hostReset (setHost rest s)) := by simp [step, hh]

theorem step_of_lookup {s : State} {i : Nat} {rest : List HostInput} (hh : s.host = .lookup i :: rest) :
    step s = lookupQuery i (setHost rest s) := by simp [step, hh]

theorem run_succ_of_next {s t : State} (h : step s = .next t) (n : Nat) : core.run (n + 1) s = core.run n t := by
  simp [Host.Core.run, core, h]

theorem run_succ_of_fault {s : State} {f : Fault} (h : step s = .fault f) (n : Nat) :
    core.run (n + 1) s = .fault f := by
  simp [Host.Core.run, core, h]

theorem run_succ_of_refused {s : State} {r : Refusal} (h : step s = .refused r) (n : Nat) :
    core.run (n + 1) s = .refused r := by
  simp [Host.Core.run, core, h]

/-- A buffer command's step stores what the command stores, and leaves TXLOG and the host's further inputs. -/
theorem step_of_bufferCommand {s : State} {w : CmdWord} {rest : List HostInput} {i : Instr}
    (hh : s.host = .command w :: rest) (hd : decode w = .ok i) (hi : isBufferCommand i = true) :
    ∃ t, step s = .next t ∧ t.buf = (effect i s).buf ∧ t.txlog = s.txlog ∧ t.host = rest :=
  ⟨_, step_of_command hh hd, effect_setHost_buf .., (onlyBufDiffers_effect hi _).txlog, effect_host ..⟩

theorem effect_flush_txlog (s : State) :
    (effect .flush s).txlog = s.txlog ++ [⟨serialize s.buf, txAnswer s⟩] := rfl

/-- Settles O53: the buffer command leaves FLUSH's word next and the log as it was, and FLUSH sends the buffer it
finds. -/
theorem flushSeesEveryEarlierBufferWrite : Obligations.FlushSeesEveryEarlierBufferWrite := by
  intro s w rest i hh hd hi
  obtain ⟨u, hfirst, hbuf, hlog, hhost⟩ := step_of_bufferCommand hh hd hi
  have hsecond : step u = .next (effect .flush (setHost rest u)) := step_of_command hhost (by decide)
  refine ⟨effect i s, effect .flush (setHost rest u), txAnswer (setHost rest u), exec_eq_effect i s,
    (run_succ_of_next hfirst 1).trans (run_succ_of_next hsecond 0), ?_, hbuf, rfl⟩
  rw [effect_flush_txlog, setHost_txlog, setHost_buf, hlog, hbuf]

/-! ## Noninterference: answers, TXLOG and STATUS never reach BUF (20_memory.md R43; 42_protocol.md R126, R128) -/

/-- `s` and `s'` have the same BUF, parameters and host inputs. They may differ in STATUS, TXLOG and the transport. -/
structure SameButReports (s s' : State) : Prop where
  buf    : s.buf = s'.buf
  config : s.config = s'.config
  host   : s.host = s'.host

/-- Both outcomes go on, with states the same but for their reports, or both stop for the same reason. -/
inductive OutcomesMatch : Host.Outcome State Fault Refusal → Host.Outcome State Fault Refusal → Prop
  | next {t t' : State} (h : SameButReports t t') : OutcomesMatch (.next t) (.next t')
  | fault (f : Fault) : OutcomesMatch (.fault f) (.fault f)
  | refused (r : Refusal) : OutcomesMatch (.refused r) (.refused r)

section
variable {s s' : State}

theorem SameButReports.setHost (h : SameButReports s s') (rest : List HostInput) :
    SameButReports (setHost rest s) (setHost rest s') := ⟨h.buf, h.config, rfl⟩

theorem SameButReports.hostReset (h : SameButReports s s') : SameButReports (hostReset s) (hostReset s') :=
  ⟨rfl, h.config, h.host⟩

theorem SameButReports.effect (h : SameButReports s s') (i : Instr) :
    SameButReports (effect i s) (effect i s') where
  buf := effect_buf_congr h.buf h.config i
  config := by simp [h.config]
  host := by simp [h.host]

theorem SameButReports.lookupQuery (h : SameButReports s s') (i : Nat) :
    OutcomesMatch (lookupQuery i s) (lookupQuery i s') := by
  unfold Machine.lookupQuery
  rw [h.config]
  cases lookupPort s'.config i with
  | ok mask => exact .next h
  | error f => exact .fault f

/-- One step from states the same but for their reports: by the host's next input, which is the same in both. -/
theorem SameButReports.step (h : SameButReports s s') : OutcomesMatch (step s) (step s') := by
  cases hh' : s'.host with
  | nil =>
    rw [step_of_nil hh', step_of_nil (h.host.trans hh')]
    exact .next h
  | cons input rest =>
    have hh := h.host.trans hh'
    cases input with
    | command w =>
      cases hd : decode w with
      | ok i =>
        rw [step_of_command hh hd, step_of_command hh' hd]
        exact .next ((h.setHost rest).effect i)
      | error why =>
        rw [step_of_reserved hh hd, step_of_reserved hh' hd]
        exact .refused _
    | reset =>
      rw [step_of_reset hh, step_of_reset hh']
      exact .next (h.setHost rest).hostReset
    | lookup i =>
      rw [step_of_lookup hh, step_of_lookup hh']
      exact (h.setHost rest).lookupQuery i

end

/-- Runs of any length, by induction on the length: the first steps match, and so do the runs after them. -/
theorem SameButReports.run (n : Nat) {s s' : State} (h : SameButReports s s') :
    OutcomesMatch (core.run n s) (core.run n s') := by
  induction n generalizing s s' with
  | zero => exact .next h
  | succ n ih =>
    have hstep := h.step
    generalize ho : Machine.step s = o at hstep
    generalize ho' : Machine.step s' = o' at hstep
    cases hstep with
    | next hnext =>
      rw [run_succ_of_next ho, run_succ_of_next ho']
      exact ih hnext
    | fault f =>
      rw [run_succ_of_fault ho, run_succ_of_fault ho']
      exact .fault f
    | refused r =>
      rw [run_succ_of_refused ho, run_succ_of_refused ho']
      exact .refused r

/-- Settles O54: equal buffers, parameters and host inputs are kept by every step, so the runs' outcomes match. -/
theorem answersNeverReachTheBuffer : Obligations.AnswersNeverReachTheBuffer := by
  intro n s s' hbuf hconfig hhost
  have hrun := SameButReports.run n ⟨hbuf, hconfig, hhost⟩
  generalize core.run n s = o at hrun ⊢
  generalize core.run n s' = o' at hrun ⊢
  cases hrun with
  | next h => exact ⟨h.buf, h.config, h.host⟩
  | fault f => rfl
  | refused r => rfl

end Sys2Proof.Machine

namespace Sys2Proof

/-! ## The fields of a command word (30_encoding.md R60)

The five fields are all of a word, so words are compared, masked and put together field by field. -/

theorem getLsbD_eq_of_bitField_eq {n lo len j : Nat} {w v : BitVec n} (h : bitField w lo len = bitField v lo len)
    (hlo : lo ≤ j) (hhi : j < lo + len) : w.getLsbD j = v.getLsbD j := by
  have hbit := congrArg (·.getLsbD (j - lo)) h
  simpa [bitField, show j - lo < len by omega, Nat.add_sub_cancel' hlo] using hbit

theorem word_eq_iff_fields (w v : CmdWord) :
    w = v ↔ opField w = opField v ∧ rsv1Field w = rsv1Field v ∧ posField w = posField v ∧
      rsv2Field w = rsv2Field v ∧ argField w = argField v := by
  refine ⟨fun h => h ▸ ⟨rfl, rfl, rfl, rfl, rfl⟩, fun ⟨hop, hrsv1, hpos, hrsv2, harg⟩ => ?_⟩
  apply BitVec.eq_of_getLsbD_eq
  intro j hj
  obtain hj | hj | hj | hj | hj :
      56 ≤ j ∨ (48 ≤ j ∧ j < 56) ∨ (40 ≤ j ∧ j < 48) ∨ (32 ≤ j ∧ j < 40) ∨ j < 32 := by omega
  · exact getLsbD_eq_of_bitField_eq hop hj (by omega)
  · exact getLsbD_eq_of_bitField_eq hrsv1 hj.1 hj.2
  · exact getLsbD_eq_of_bitField_eq hpos hj.1 hj.2
  · exact getLsbD_eq_of_bitField_eq hrsv2 hj.1 hj.2
  · exact getLsbD_eq_of_bitField_eq harg (Nat.zero_le j) (by omega)

@[simp] theorem opField_and (w m : CmdWord) : opField (w &&& m) = opField w &&& opField m :=
  BitVec.extractLsb'_and ..

@[simp] theorem rsv1Field_and (w m : CmdWord) : rsv1Field (w &&& m) = rsv1Field w &&& rsv1Field m :=
  BitVec.extractLsb'_and ..

@[simp] theorem posField_and (w m : CmdWord) : posField (w &&& m) = posField w &&& posField m :=
  BitVec.extractLsb'_and ..

@[simp] theorem rsv2Field_and (w m : CmdWord) : rsv2Field (w &&& m) = rsv2Field w &&& rsv2Field m :=
  BitVec.extractLsb'_and ..

@[simp] theorem argField_and (w m : CmdWord) : argField (w &&& m) = argField w &&& argField m :=
  BitVec.extractLsb'_and ..

/-! ## The header: opcode and reserved fields (30_encoding.md R63, R64) -/

/-- `w` carries the opcode `op`, and its reserved fields are zero. -/
structure HasHeader (op : Opcode) (w : CmdWord) : Prop where
  opcode : opField w = op.code
  rsv1   : rsv1Field w = 0
  rsv2   : rsv2Field w = 0

theorem hasHeader_assemble (op : Opcode) (pos : Byte) (arg : BitVec 32) : HasHeader op (assemble op pos arg) :=
  ⟨opField_assemble .., rsv1Field_assemble .., rsv2Field_assemble ..⟩

/-- A word's `OP` field names one opcode. -/
theorem HasHeader.op_unique {op op' : Opcode} {w : CmdWord} (h : HasHeader op w) (h' : opField w = op'.code) :
    op = op' := by
  have hcode := congrArg opcodeOf (h.opcode.symm.trans h')
  rwa [opcodeOf_code, opcodeOf_code, Option.some_inj] at hcode

/-- A word with its reserved fields zero is assembled from its other three fields. -/
theorem HasHeader.assemble_fields {op : Opcode} {w : CmdWord} (h : HasHeader op w) :
    assemble op (posField w) (argField w) = w := by
  rw [word_eq_iff_fields, opField_assemble, rsv1Field_assemble, posField_assemble, rsv2Field_assemble,
    argField_assemble]
  exact ⟨h.opcode.symm, h.rsv1.symm, rfl, h.rsv2.symm, rfl⟩

theorem opcodeOf_eq_some_iff (b : Byte) (op : Opcode) : opcodeOf b = some op ↔ b = op.code := by
  refine ⟨fun h => ?_, fun h => h ▸ opcodeOf_code op⟩
  unfold opcodeOf at h
  split at h <;> cases h <;> exact BitVec.eq_of_toNat_eq ‹_›

theorem opcodeOf_eq_none_iff (b : Byte) : opcodeOf b = none ↔ b = 0 ∨ 8 ≤ b.toNat := by
  revert b
  decide

/-- Decoding reads the header, and then the operands of the opcode found there. -/
theorem decode_eq_ok_iff (w : CmdWord) (i : Instr) :
    decode w = .ok i ↔ ∃ op, HasHeader op w ∧ decodeOperands op w = .ok i := by
  constructor
  · intro h
    unfold decode at h
    split at h
    · cases h
    next op hop =>
      split_ifs at h with hrsv1 hrsv2
      exact ⟨op, ⟨(opcodeOf_eq_some_iff ..).mp hop, not_not.mp hrsv1, not_not.mp hrsv2⟩, h⟩
  · rintro ⟨op, hhead, h⟩
    simp [decode, hhead.opcode, hhead.rsv1, hhead.rsv2, opcodeOf_code, h]

/-! ## The operands (30_encoding.md R61, R62, R64) -/

theorem withoutOperands_eq_ok_iff (w : CmdWord) (i j : Instr) :
    withoutOperands w i = .ok j ↔ posField w = 0 ∧ argField w = 0 ∧ i = j := by
  unfold withoutOperands
  split_ifs <;> simp_all

theorem withArgOnly_eq_ok_iff (w : CmdWord) (i j : Instr) :
    withArgOnly w i = .ok j ↔ posField w = 0 ∧ i = j := by
  unfold withArgOnly
  split_ifs <;> simp_all

/-- The operands read from an encoded command are its own, where they fit their fields (30_encoding.md R73). -/
theorem decodeOperands_encode {i : Instr} (hi : i.wf = true) : decodeOperands i.opcode (encode i) = .ok i := by
  cases i with
  | clear | setup | flush =>
    exact (withoutOperands_eq_ok_iff ..).mpr ⟨posField_assemble .., argField_assemble .., rfl⟩
  | wdig pos x | wraw pos x =>
    simpa [Instr.opcode, encode, decodeOperands, posOperand, argUnsigned, posField_assemble, argField_assemble,
      Instr.wf] using hi
  | bright level =>
    obtain ⟨hlow, hhigh⟩ : -2 ^ 31 ≤ level ∧ level < 2 ^ 31 := by simpa [Instr.wf] using hi
    refine (withArgOnly_eq_ok_iff ..).mpr ⟨posField_assemble .., congrArg Instr.bright ?_⟩
    rw [argSigned, encode, argField_assemble]
    exact BitVec.toInt_ofInt_eq_self (by decide) hlow hhigh
  | blink rate =>
    have hrate : rate < 2 ^ 32 := by simpa [Instr.wf] using hi
    refine (withArgOnly_eq_ok_iff ..).mpr ⟨posField_assemble .., congrArg Instr.blink ?_⟩
    rw [argUnsigned, encode, argField_assemble]
    exact Nat.mod_eq_of_lt hrate

/-- A command's operands are read from `POS` and `ARG` without loss. -/
theorem encode_of_decodeOperands {op : Opcode} {w : CmdWord} {i : Instr} (h : decodeOperands op w = .ok i) :
    encode i = assemble op (posField w) (argField w) := by
  cases op with
  | clear | setup | flush =>
    obtain ⟨hpos, harg, rfl⟩ := (withoutOperands_eq_ok_iff ..).mp h
    rw [hpos, harg]
    rfl
  | wdig | wraw =>
    cases h
    simp [encode, posOperand, argUnsigned]
  | bright | blink =>
    obtain ⟨hpos, rfl⟩ := (withArgOnly_eq_ok_iff ..).mp h
    simp [encode, argSigned, argUnsigned, hpos]

theorem argSigned_bounds (w : CmdWord) : -2 ^ 31 ≤ argSigned w ∧ argSigned w < 2 ^ 31 :=
  ⟨BitVec.le_toInt _, BitVec.toInt_lt⟩

/-- What a field holds fits the field. -/
theorem wf_of_decodeOperands {op : Opcode} {w : CmdWord} {i : Instr} (h : decodeOperands op w = .ok i) :
    i.wf = true := by
  have hpos : posOperand w < 2 ^ 8 := (posField w).isLt
  have harg : argUnsigned w < 2 ^ 32 := (argField w).isLt
  cases op with
  | clear | setup | flush =>
    obtain ⟨-, -, rfl⟩ := (withoutOperands_eq_ok_iff ..).mp h
    rfl
  | wdig | wraw =>
    cases h
    simp only [Instr.wf, hpos, harg, decide_true, Bool.and_self]
  | bright =>
    obtain ⟨-, rfl⟩ := (withArgOnly_eq_ok_iff ..).mp h
    simpa [Instr.wf] using argSigned_bounds w
  | blink =>
    obtain ⟨-, rfl⟩ := (withArgOnly_eq_ok_iff ..).mp h
    exact decide_eq_true harg

/-! ## Decoding and encoding are inverse (30_encoding.md R60-R64, R73) -/

theorem hasHeader_encode (i : Instr) : HasHeader i.opcode (encode i) := by
  cases i <;> exact hasHeader_assemble ..

/-- Settles O1: the encoded word has the command's header, and its operands are read back from their fields. -/
theorem decodeOfEncodeIsTheCommand : Obligations.DecodeOfEncodeIsTheCommand := fun i hi =>
  (decode_eq_ok_iff ..).mpr ⟨i.opcode, hasHeader_encode i, decodeOperands_encode hi⟩

/-- Settles O2: a word that decodes is assembled from its opcode, `POS` and `ARG`, and encoding puts the same three
together. -/
theorem decodedWordIsTheCommandsEncoding : Obligations.DecodedWordIsTheCommandsEncoding := by
  intro w i h
  obtain ⟨op, hhead, hoperands⟩ := (decode_eq_ok_iff ..).mp h
  exact ⟨(encode_of_decodeOperands hoperands).trans hhead.assemble_fields, wf_of_decodeOperands hoperands⟩

/-! ## The opcode map (30_encoding.md R64) -/

/-- The column "uses `POS`" of the opcode map. -/
def Opcode.usesPos : Opcode → Bool
  | .wdig | .wraw => true
  | .clear | .setup | .bright | .blink | .flush => false

/-- The column "uses `ARG`" of the opcode map. -/
def Opcode.usesArg : Opcode → Bool
  | .wdig | .wraw | .bright | .blink => true
  | .clear | .setup | .flush => false

/-- `w` has the header of `op`, and the fields `op` does not use are zero. -/
structure FollowsRow (op : Opcode) (w : CmdWord) : Prop where
  header : HasHeader op w
  pos    : op.usesPos = false → posField w = 0
  arg    : op.usesArg = false → argField w = 0

theorem followsRow_iff (op : Opcode) (w : CmdWord) :
    FollowsRow op w ↔ opField w = op.code ∧ rsv1Field w = 0 ∧ (op.usesPos = false → posField w = 0) ∧
      rsv2Field w = 0 ∧ (op.usesArg = false → argField w = 0) :=
  ⟨fun ⟨⟨hop, hrsv1, hrsv2⟩, hpos, harg⟩ => ⟨hop, hrsv1, hpos, hrsv2, harg⟩,
    fun ⟨hop, hrsv1, hpos, hrsv2, harg⟩ => ⟨⟨hop, hrsv1, hrsv2⟩, hpos, harg⟩⟩

theorem opcode_of_decodeOperands {op : Opcode} {w : CmdWord} {i : Instr} (h : decodeOperands op w = .ok i) :
    i.opcode = op := by
  cases op with
  | clear | setup | flush => obtain ⟨-, -, rfl⟩ := (withoutOperands_eq_ok_iff ..).mp h; rfl
  | wdig | wraw => cases h; rfl
  | bright | blink => obtain ⟨-, rfl⟩ := (withArgOnly_eq_ok_iff ..).mp h; rfl

theorem exists_decodeOperands_iff (op : Opcode) (w : CmdWord) :
    (∃ i, decodeOperands op w = .ok i) ↔
      (op.usesPos = false → posField w = 0) ∧ (op.usesArg = false → argField w = 0) := by
  cases op <;>
    simp [decodeOperands, withoutOperands_eq_ok_iff, withArgOnly_eq_ok_iff, Opcode.usesPos, Opcode.usesArg]

theorem exists_decode_opcode_iff (w : CmdWord) (op : Opcode) :
    (∃ i, decode w = .ok i ∧ i.opcode = op) ↔ FollowsRow op w := by
  constructor
  · rintro ⟨i, h, rfl⟩
    obtain ⟨op, hhead, hoperands⟩ := (decode_eq_ok_iff ..).mp h
    obtain ⟨hpos, harg⟩ := (exists_decodeOperands_iff op w).mp ⟨i, hoperands⟩
    rw [opcode_of_decodeOperands hoperands]
    exact ⟨hhead, hpos, harg⟩
  · rintro ⟨hhead, hpos, harg⟩
    obtain ⟨i, hi⟩ := (exists_decodeOperands_iff op w).mpr ⟨hpos, harg⟩
    exact ⟨i, (decode_eq_ok_iff ..).mpr ⟨op, hhead, hi⟩, opcode_of_decodeOperands hi⟩

/-- The match column holds the opcode and zero in every other field. -/
theorem row_matchBits_fields : ∀ r ∈ opcodeRows,
    opField r.matchBits = r.op.code ∧ rsv1Field r.matchBits = 0 ∧ posField r.matchBits = 0 ∧
      rsv2Field r.matchBits = 0 ∧ argField r.matchBits = 0 := by decide

/-- The mask column is zero in the fields the command uses, and all ones in every other field. -/
theorem row_maskBits_fields : ∀ r ∈ opcodeRows,
    opField r.maskBits = BitVec.allOnes 8 ∧ rsv1Field r.maskBits = BitVec.allOnes 8 ∧
      posField r.maskBits = (if r.op.usesPos then 0 else BitVec.allOnes 8) ∧
      rsv2Field r.maskBits = BitVec.allOnes 8 ∧
      argField r.maskBits = (if r.op.usesArg then 0 else BitVec.allOnes 32) := by decide

theorem rowMatches_iff_followsRow {r : OpcodeRow} (hr : r ∈ opcodeRows) (w : CmdWord) :
    rowMatches r w = true ↔ FollowsRow r.op w := by
  rw [rowMatches, beq_iff_eq, word_eq_iff_fields, followsRow_iff]
  cases hpos : r.op.usesPos <;> cases harg : r.op.usesArg <;>
    simp [row_matchBits_fields r hr, row_maskBits_fields r hr, hpos, harg, -BitVec.reduceAllOnes]

theorem exists_row (op : Opcode) : ∃ r ∈ opcodeRows, r.op = op := by cases op <;> decide

theorem row_eq_of_op_eq : ∀ r ∈ opcodeRows, ∀ r' ∈ opcodeRows, r.op = r'.op → r = r' := by decide

/-- Settles O3: a row's match and mask ask for the header and the zero fields that decoding asks for. -/
theorem decodeIffOpcodeRowMatches : Obligations.DecodeIffOpcodeRowMatches := by
  constructor
  · intro w op
    rw [exists_decode_opcode_iff]
    constructor
    · intro h
      obtain ⟨r, hr, rfl⟩ := exists_row op
      exact ⟨r, hr, rfl, (rowMatches_iff_followsRow hr w).mpr h⟩
    · rintro ⟨r, hr, rfl, h⟩
      exact (rowMatches_iff_followsRow hr w).mp h
  · intro w r hr r' hr' h h'
    have hrow := (rowMatches_iff_followsRow hr w).mp h
    have hrow' := (rowMatches_iff_followsRow hr' w).mp h'
    exact row_eq_of_op_eq r hr r' hr' (hrow.header.op_unique hrow'.header.opcode)

/-- Settles O5, by evaluation of `decode` on each word. -/
theorem sampleWordsDecodeAsTheSpecSays : Obligations.SampleWordsDecodeAsTheSpecSays := by
  unfold Obligations.SampleWordsDecodeAsTheSpecSays
  decide

/-! ## Reserved words (30_encoding.md R67) -/

/-- The reserved words, by the fields of R67: an `OP` that is none of the seven, or a field that must be zero and is
not. -/
def IsReserved (w : CmdWord) : Prop :=
  (opField w = 0 ∨ 8 ≤ (opField w).toNat) ∨
  rsv1Field w ≠ 0 ∨ rsv2Field w ≠ 0 ∨
  ((opField w = 0x01 ∨ opField w = 0x04 ∨ opField w = 0x07) ∧ (posField w ≠ 0 ∨ argField w ≠ 0)) ∨
  ((opField w = 0x05 ∨ opField w = 0x06) ∧ posField w ≠ 0)

theorem isReserved_iff_of_opcode {op : Opcode} {w : CmdWord} (hop : opField w = op.code) :
    IsReserved w ↔ ¬ FollowsRow op w := by
  rw [followsRow_iff, IsReserved, hop]
  cases op <;> simp [Opcode.code, Opcode.usesPos, Opcode.usesArg] <;> tauto

theorem exists_decode_iff (w : CmdWord) : (∃ i, decode w = .ok i) ↔ ∃ op, FollowsRow op w :=
  ⟨fun ⟨i, h⟩ => ⟨i.opcode, (exists_decode_opcode_iff ..).mp ⟨i, h, rfl⟩⟩,
    fun ⟨op, h⟩ => let ⟨i, hi, _⟩ := (exists_decode_opcode_iff w op).mpr h; ⟨i, hi⟩⟩

theorem exists_decode_error_iff (w : CmdWord) : (∃ why, decode w = .error why) ↔ ¬ ∃ op, FollowsRow op w := by
  rw [← exists_decode_iff]
  cases decode w <;> simp

theorem isReserved_iff_decode_error (w : CmdWord) : IsReserved w ↔ ∃ why, decode w = .error why := by
  cases h : opcodeOf (opField w) with
  | none => exact iff_of_true (.inl ((opcodeOf_eq_none_iff _).mp h)) ⟨.opcode, by simp [decode, h]⟩
  | some op =>
    have hop := (opcodeOf_eq_some_iff ..).mp h
    rw [isReserved_iff_of_opcode hop, exists_decode_error_iff, not_iff_not]
    refine ⟨fun hrow => ⟨op, hrow⟩, fun ⟨op', hrow⟩ => ?_⟩
    rwa [hrow.header.op_unique hop] at hrow

end Sys2Proof

namespace Sys2Proof.Machine

/-- A word the host presents is refused in every run of one step or more iff it does not decode: a refusal ends the
run, and a word that decodes gives the first step a next state. -/
theorem run_refused_iff_decode_error {s : State} {w : CmdWord} {rest : List HostInput}
    (hh : s.host = .command w :: rest) :
    (∃ why, ∀ n, core.run (n + 1) s = .refused (.reservedWord why)) ↔ ∃ why, decode w = .error why := by
  constructor
  · rintro ⟨why, hrun⟩
    cases hd : decode w with
    | ok i => cases (run_succ_of_next (step_of_command hh hd) 0).symm.trans (hrun 0)
    | error why' => exact ⟨why', rfl⟩
  · rintro ⟨why, hd⟩
    exact ⟨why, run_succ_of_refused (step_of_reserved hh hd)⟩

/-- Settles O4: a word is reserved iff it does not decode, and then no step follows. -/
theorem reservedWordsAreRefusedForEver : Obligations.ReservedWordsAreRefusedForEver := by
  intro s w rest hh
  exact (isReserved_iff_decode_error w).trans (run_refused_iff_decode_error hh).symm

/-- Settles O6: every command goes on from the state with its word taken. -/
theorem stepRunsThePresentedCommand : Obligations.StepRunsThePresentedCommand := by
  intro s w rest i hh hd
  exact (step_of_command hh hd).trans (exec_eq_effect i _).symm

/-! ## Legal frames (30_encoding.md R69, R70) -/

theorem legalFrame_brightByte (level : Int) : legalFrame [brightByte (clampLevel level)] = true := by
  have hlegal : ∀ l < 16, legalFrame [brightByte l] = true := by decide
  exact hlegal _ (Nat.lt_succ_of_le (clampLevel_le level))

theorem legalFrame_blinkByte (rate : Nat) : legalFrame [blinkByte (blinkField rate)] = true := by
  have hlegal : ∀ r < 4, legalFrame [blinkByte r] = true := by decide
  exact hlegal _ (Nat.lt_succ_of_le (blinkField_le rate))

theorem legalFrame_oscillatorByte : legalFrame [oscillatorByte] = true := by decide

theorem legalFrame_dataframe {s : State} (hs : UnusedZero s) : legalFrame (dataframe s.buf) = true := by
  have hlen := serialize_length s.buf
  have hzero := serialize_unused_zero hs
  rw [dataframe_eq]
  unfold legalFrame
  split
  next b hb => simp [hb] at hlen
  next => simp [hlen, hzero]

/-- A protocol command adds legal frames alone to TXLOG, where positions 5 to 7 are zero. -/
theorem sent_legal_effect {i : Instr} (hi : isBufferCommand i = false) {s : State} (hs : UnusedZero s) :
    ∃ new, Sent s (effect i s) new ∧ ∀ r ∈ new, legalFrame r.frame = true := by
  cases i with
  | clear | wdig | wraw => cases hi
  | setup =>
    cases ha : txAnswer s with
    | ok =>
      rw [effect_setup_of_ok ha]
      refine ⟨_, (sent_txWrite ..).trans (sent_sendAndReport ..), ?_⟩
      simp [legalFrame_oscillatorByte, legalFrame_dataframe hs]
    | fail =>
      rw [effect_setup_of_fail ha]
      exact ⟨_, (sent_txWrite ..).setStatus _, by simp [legalFrame_oscillatorByte]⟩
  | bright level => exact ⟨_, sent_sendAndReport .., by simp [legalFrame_brightByte]⟩
  | blink rate => exact ⟨_, sent_sendAndReport .., by simp [legalFrame_blinkByte]⟩
  | flush => exact ⟨_, sent_sendAndReport .., by simp [legalFrame_dataframe hs]⟩

theorem effect_frames_legal (i : Instr) {s : State} (hs : UnusedZero s) :
    ∀ r ∈ (effect i s).txlog, r ∈ s.txlog ∨ legalFrame r.frame = true := by
  intro r hr
  cases hi : isBufferCommand i
  · obtain ⟨new, hsent, hlegal⟩ := sent_legal_effect hi hs
    rw [hsent.txlog, List.mem_append] at hr
    exact hr.imp_right (hlegal r)
  · rw [(onlyBufDiffers_effect hi s).txlog] at hr
    exact .inl hr

/-- Settles O51: of what a step can do, only a command sends a frame, and taking its word leaves BUF alone. -/
theorem onlyLegalFramesAreSent : Obligations.OnlyLegalFramesAreSent := by
  refine ⟨fun s t hs h r hr => ?_, by decide, by decide⟩
  obtain ⟨-, rfl⟩ | ⟨w, i, rest, -, -, rfl⟩ | ⟨rest, -, rfl⟩ | ⟨i, rest, -, -, rfl⟩ := step_cases h
  · exact .inl hr
  · exact effect_frames_legal i (s := setHost rest s) hs r hr
  · cases hr
  · exact .inl hr

end Sys2Proof.Machine

namespace Sys2Proof.Machine

/-! ## The glyph encoder (40_glyph_encoder.md R80-R88)

The lookup `encodeGlyph` alone tells the variants apart: once an index is known to have an entry or none, what the
lookup port answers and what WDIG stores are the same facts in both. -/

/-! ### The tables -/

theorem encodeGlyph_clock_fin {c : BlockConfig} (hv : c.variant = .clock) (idx : Fin 28) :
    encodeGlyph c idx = some (c.glyphRomClock.get idx) := by
  rw [encodeGlyph_clock hv, dif_pos idx.isLt]

theorem encodeGlyph_general_fin {c : BlockConfig} (hv : c.variant = .general) (idx : Fin 33) :
    encodeGlyph c idx = some (c.glyphRomGeneral.get idx) := by
  rw [encodeGlyph_general hv, dif_pos idx.isLt]

theorem encodeGlyph_eq_none_iff (c : BlockConfig) (i : Nat) :
    encodeGlyph c i = none ↔ glyphCount c.variant ≤ i := by
  rw [← Option.not_isSome_iff_eq_none, encodeGlyph_isSome, decide_eq_true_iff, Nat.not_lt]

theorem lt_glyphCount_of_encodeGlyph {c : BlockConfig} {i : Nat} {mask : Byte} (hm : encodeGlyph c i = some mask) :
    i < glyphCount c.variant := by
  simpa [hm] using encodeGlyph_isSome c i

/-! ### What WDIG does with an index -/

/-- An index the ROM does not hold is dropped before the ROM is read, at any position (41_buffer.md R93). -/
theorem exec_wdig_of_no_entry {s : State} {idx : Nat} (hn : encodeGlyph s.config idx = none) (pos : Nat) :
    exec (.wdig pos idx) s = .next s := by
  refine exec_eq_next.mpr ?_
  obtain ⟨p, mask, -, hm, -⟩ | ⟨-, h⟩ := writeDigit_cases pos idx s
  · cases hn.symm.trans hm
  · exact h.symm

theorem exec_wdig_of_entry {s : State} {p : Fin 8} {idx : Nat} {mask : Byte} (hp : p.val ≤ 4)
    (hm : encodeGlyph s.config idx = some mask) :
    exec (.wdig p idx) s = .next (writeBuf p (digitWord s.config.variant p idx mask) s) := by
  simp [exec, execWdig, writeDigit, writablePos_of_le hp, hm]

/-- Every position but CLOCK's position 2 takes the glyph (41_buffer.md R91, R95). -/
theorem digitWord_of_encoded {v : Variant} {p : Fin 8} (henc : v = .clock → p ≠ 2) (idx : Nat) (mask : Byte) :
    digitWord v p idx mask = glyphWord mask :=
  if_neg fun ⟨hv, hp⟩ => henc hv hp

/-- WDIG at an encoded position stores the entry, zero-extended, and changes nothing else. -/
theorem exec_wdig_stores_entry {s : State} {p : Fin 8} {idx : Nat} {mask : Byte} (hp : p.val ≤ 4)
    (henc : s.config.variant = .clock → p ≠ 2) (hm : encodeGlyph s.config idx = some mask) :
    ∃ t, exec (.wdig p idx) s = .next t ∧ readBuf t p = mask.setWidth 16 ∧
      (∀ q, q ≠ p → readBuf t q = readBuf s q) ∧ OnlyBufDiffers s t := by
  refine ⟨_, exec_wdig_of_entry hp hm, ?_, fun q hq => readBuf_writeBuf_other hq .., onlyBufDiffers_writeBuf ..⟩
  rw [readBuf_writeBuf_same, digitWord_of_encoded henc, glyphWord]

/-! ### The blank glyph (40_glyph_encoder.md R84) -/

/-- Parameters are well formed iff the configured variant's table has the mask zero at a blank index that names no
symbol. -/
theorem config_wf_iff (c : BlockConfig) :
    c.wf = true ↔ c.variant.knownSymbol (blankIdx c) = none ∧ encodeGlyph c (blankIdx c) = some 0 := by
  cases hv : c.variant with
  | clock => simp [BlockConfig.wf, blankGlyphOk, blankIdx, hv, encodeGlyph_clock_fin hv]
  | general => simp [BlockConfig.wf, blankGlyphOk, blankIdx, hv, encodeGlyph_general_fin hv]

/-- Settles O22: the blank index names no symbol and has the entry zero, which WDIG stores. -/
theorem blankGlyphWritesZero : Obligations.BlankGlyphWritesZero := by
  intro s hwf
  obtain ⟨hsymbol, hentry⟩ := (config_wf_iff s.config).mp hwf
  constructor
  · have hlt := lt_glyphCount_of_encodeGlyph hentry
    cases hv : s.config.variant with
    | clock =>
      rw [hv] at hsymbol hlt
      obtain ⟨hdigit, hletter⟩ := (knownSymbol_clock_eq_none_iff _).mp hsymbol
      exact ⟨hdigit, fun _ => ⟨hlt, hletter⟩, nofun⟩
    | general =>
      rw [hv] at hsymbol hlt
      obtain ⟨hdigit, hletter⟩ := (knownSymbol_general_eq_none_iff _).mp hsymbol
      exact ⟨hdigit, nofun, fun _ => ⟨hlt, hletter⟩⟩
  · intro p hp hp2
    obtain ⟨t, hexec, hword, -, -⟩ := exec_wdig_stores_entry hp (fun _ => hp2) hentry
    exact ⟨t, hexec, hword⟩

/-- Settles O20: in CLOCK position 2 is left out, and every other position is encoded. -/
theorem wdigStoresTheEntryOfItsOwnTable : Obligations.WdigStoresTheEntryOfItsOwnTable := by
  constructor
  · intro s p idx hv hp hp2
    exact exec_wdig_stores_entry hp (fun _ => hp2) (encodeGlyph_clock_fin hv idx)
  · intro s p idx hv hp
    exact exec_wdig_stores_entry hp (fun hclock => nomatch hv.symm.trans hclock) (encodeGlyph_general_fin hv idx)

/-! ### The lookup port (40_glyph_encoder.md R81, R82) -/

theorem lookupPort_of_entry {c : BlockConfig} {i : Nat} {mask : Byte} (hm : encodeGlyph c i = some mask) :
    lookupPort c i = .ok mask := by simp [lookupPort, hm]

theorem lookupPort_of_no_entry {c : BlockConfig} {i : Nat} (hn : encodeGlyph c i = none) :
    lookupPort c i = .error (.lookupOutOfRange i) := by simp [lookupPort, hn]

section
variable {s : State} {i : Nat} {rest : List HostInput} (hh : s.host = .lookup i :: rest)
include hh

/-- A query of an index in the table is answered with its entry, and nothing but the query itself is taken. -/
theorem lookup_of_entry {mask : Byte} (hm : encodeGlyph s.config i = some mask) :
    lookupPort s.config i = .ok mask ∧ step s = .next { s with host := rest } := by
  refine ⟨lookupPort_of_entry hm, ?_⟩
  rw [step_of_lookup hh, lookupQuery, setHost_config, lookupPort_of_entry hm]
  rfl

/-- An index the table does not hold faults the query, and WDIG drops it. -/
theorem lookup_of_no_entry (hn : encodeGlyph s.config i = none) :
    step s = .fault (.lookupOutOfRange i) ∧ ∀ pos, exec (.wdig pos i) s = .next s := by
  refine ⟨?_, exec_wdig_of_no_entry hn⟩
  rw [step_of_lookup hh, lookupQuery, setHost_config, lookupPort_of_no_entry hn]

end

/-- Settles O12: the bound of each variant is where its table ends. -/
theorem lookupPortAnswersInRangeAndFaultsBeyond : Obligations.LookupPortAnswersInRangeAndFaultsBeyond := by
  intro s i rest hh
  have hbeyond (h : glyphCount s.config.variant ≤ i) := lookup_of_no_entry hh ((encodeGlyph_eq_none_iff ..).mpr h)
  refine ⟨fun hv => ⟨fun h => ?_, fun h => ?_⟩, fun hv => ⟨fun h => ?_, fun h => ?_⟩⟩
  · exact lookup_of_entry hh (encodeGlyph_clock_fin hv ⟨i, h⟩)
  · exact hbeyond (by rwa [hv])
  · exact lookup_of_entry hh (encodeGlyph_general_fin hv ⟨i, h⟩)
  · exact hbeyond (by rwa [hv])

end Sys2Proof.Machine

namespace Sys2Proof

/-! ## The words of WDIG and WRAW (41_buffer.md R91, R96) -/

/-- The word with `pos` and `arg` written as numbers in their places, where they fit their fields (30_encoding.md
R73). -/
theorem word_of_operands_eq_assemble (op : Opcode) {pos arg : Nat} (hpos : pos < 2 ^ 8) (harg : arg < 2 ^ 32) :
    (op.code.setWidth 64 <<< 56) ||| (BitVec.ofNat 64 pos <<< 40) ||| BitVec.ofNat 64 arg =
      assemble op (BitVec.ofNat 8 pos) (BitVec.ofNat 32 arg) := by
  rw [assemble, BitVec.setWidth_ofNat_of_le_of_lt (by decide) hpos, BitVec.setWidth_ofNat_of_le_of_lt (by decide) harg]

theorem decode_wdig_word {pos idx : Nat} (hpos : pos < 2 ^ 8) (hidx : idx < 2 ^ 32) :
    decode ((0x02#64 <<< 56) ||| (BitVec.ofNat 64 pos <<< 40) ||| BitVec.ofNat 64 idx) = .ok (.wdig pos idx) :=
  (congrArg decode (word_of_operands_eq_assemble .wdig hpos hidx)).trans
    (decodeOfEncodeIsTheCommand (.wdig pos idx) (by simpa [Instr.wf] using ⟨hpos, hidx⟩))

theorem decode_wraw_word {pos value : Nat} (hpos : pos < 2 ^ 8) (hvalue : value < 2 ^ 32) :
    decode ((0x03#64 <<< 56) ||| (BitVec.ofNat 64 pos <<< 40) ||| BitVec.ofNat 64 value) = .ok (.wraw pos value) :=
  (congrArg decode (word_of_operands_eq_assemble .wraw hpos hvalue)).trans
    (decodeOfEncodeIsTheCommand (.wraw pos value) (by simpa [Instr.wf] using ⟨hpos, hvalue⟩))

end Sys2Proof

namespace Sys2Proof.Machine

/-! ## The buffer commands (41_buffer.md R90-R101)

WDIG and WRAW each either drop, and then leave the state as it was, or store one word at a position 0 to 4. -/

/-- A command that is one store stores its word, and changes nothing else. -/
theorem exec_stores {i : Instr} {s : State} {p : Fin 8} {v : BufWord} (h : exec i s = .next (writeBuf p v s)) :
    ∃ t, exec i s = .next t ∧ readBuf t p = v ∧ (∀ q, q ≠ p → readBuf t q = readBuf s q) ∧ OnlyBufDiffers s t :=
  ⟨_, h, readBuf_writeBuf_same .., fun _ hq => readBuf_writeBuf_other hq .., onlyBufDiffers_writeBuf ..⟩

/-- A number of 16 bits or fewer is the value of its word. -/
theorem toNat_ofNat_of_fits {value : Nat} (h : value ≤ 0xFFFF) : (BitVec.ofNat 16 value).toNat = value :=
  Nat.mod_eq_of_lt (by omega)

/-- A store at a position a command may write keeps the words at positions 5 to 7. -/
theorem readBuf_writeBuf_unused {pos : Nat} {p q : Fin 8} (hp : writablePos pos = some p) (hq : 5 ≤ q.val)
    (v : BufWord) (s : State) : readBuf (writeBuf p v s) q = readBuf s q := by
  obtain ⟨hpos, hle⟩ := writablePos_eq_some hp
  exact readBuf_writeBuf_other (by rintro rfl; omega) ..

/-- Settles O27: every command goes on, and the buffer commands change BUF alone. -/
theorem bufferCommandsAffectBufAlone : Obligations.BufferCommandsAffectBufAlone :=
  fun i s hi => ⟨effect i s, exec_eq_effect i s, onlyBufDiffers_effect hi s⟩

/-- Settles O14: CLEAR's effect is `zeroBuf`. -/
theorem clearZeroesEveryPositionAlone : Obligations.ClearZeroesEveryPositionAlone :=
  ⟨by decide, fun s => ⟨zeroBuf s, exec_eq_effect .clear s, fun p => readBuf_zeroBuf p s,
    onlyBufDiffers_effect (i := .clear) rfl s⟩⟩

/-! ### When WDIG drops, and what it stores (41_buffer.md R91-R95) -/

theorem glyphCount_eq_ite (v : Variant) : glyphCount v = if v = .clock then 28 else 33 := by cases v <;> rfl

theorem exists_entry_of_lt {c : BlockConfig} {idx : Nat} (h : idx < glyphCount c.variant) :
    ∃ mask, encodeGlyph c idx = some mask :=
  Option.ne_none_iff_exists'.mp fun hn => Nat.not_le.mpr h ((encodeGlyph_eq_none_iff c idx).mp hn)

theorem exec_wdig_of_drop {s : State} {pos idx : Nat} (h : 4 < pos ∨ glyphCount s.config.variant ≤ idx) :
    exec (.wdig pos idx) s = .next s := by
  obtain hpos | hidx := h
  · simp [exec, execWdig, writeDigit, writablePos_of_gt hpos]
  · exact exec_wdig_of_no_entry ((encodeGlyph_eq_none_iff ..).mpr hidx) pos

theorem readBuf_writeDigit_unused {q : Fin 8} (hq : 5 ≤ q.val) (pos idx : Nat) (s : State) :
    readBuf (writeDigit pos idx s) q = readBuf s q := by
  obtain ⟨p, mask, hp, -, h⟩ | ⟨-, h⟩ := writeDigit_cases pos idx s
  · rw [h, readBuf_writeBuf_unused hp hq]
  · rw [h]

theorem digitWord_separator {v : Variant} {p : Fin 8} (h : v = .clock ∧ p = 2) (idx : Nat) (mask : Byte) :
    digitWord v p idx mask = BitVec.ofNat 16 idx := if_pos h

/-- Both an index of the table and a zero-extended glyph fit a byte. -/
theorem digitWord_toNat_lt {v : Variant} {idx : Nat} (hidx : idx < glyphCount v) (p : Fin 8) (mask : Byte) :
    (digitWord v p idx mask).toNat < 2 ^ 8 := by
  unfold digitWord
  split
  next h =>
    rw [h.1, glyphCount] at hidx
    rw [BitVec.toNat_ofNat]
    omega
  next =>
    rw [glyphWord, BitVec.toNat_setWidth]
    omega

theorem highByte_eq_zero_of_lt {v : BufWord} (h : v.toNat < 2 ^ 8) : bitField v 8 8 = 0 := by
  apply BitVec.eq_of_toNat_eq
  rw [BitVec.extractLsb'_toNat, Nat.shiftRight_eq_div_pow, Nat.div_eq_of_lt h]
  rfl

/-- Settles O15: the first failing check drops, and with neither failing the index has an entry, which decides the
stored word. -/
theorem wdigFollowsItsPseudocode : Obligations.WdigFollowsItsPseudocode := by
  refine ⟨fun _ _ => decode_wdig_word, fun s pos idx => ?_⟩
  rw [← glyphCount_eq_ite]
  refine ⟨fun hpos => exec_wdig_of_drop (.inl hpos), fun hidx => exec_wdig_of_drop (.inr hidx), fun hpos hidx => ?_⟩
  obtain ⟨p, rfl⟩ : ∃ p : Fin 8, p.val = pos := ⟨⟨pos, by omega⟩, rfl⟩
  obtain ⟨mask, hm⟩ := exists_entry_of_lt hidx
  obtain ⟨t, hexec, hword, hothers, hframe⟩ := exec_stores (exec_wdig_of_entry hpos hm)
  refine ⟨t, hexec, fun q hq => ?_, fun q hq => hothers q (fun h => hq (congrArg Fin.val h)), hframe⟩
  rw [Fin.ext hq, hword]
  split
  next h => exact digitWord_separator ⟨h.1, Fin.ext h.2⟩ ..
  next h => exact ⟨mask, hm, digitWord_of_encoded (fun hv hp => h ⟨hv, congrArg Fin.val hp⟩) ..⟩

/-- Settles O21: the stored word fits a byte, so its high byte, which is serialized first, is zero. -/
theorem wdigStoredWordHasAZeroHighByte : Obligations.WdigStoredWordHasAZeroHighByte := by
  intro s p idx hp hidx
  rw [← glyphCount_eq_ite] at hidx
  obtain ⟨mask, hm⟩ := exists_entry_of_lt hidx
  obtain ⟨t, hexec, hword, -, -⟩ := exec_stores (exec_wdig_of_entry hp hm)
  have hhigh : bitField (readBuf t p) 8 8 = 0 := highByte_eq_zero_of_lt (hword ▸ digitWord_toNat_lt hidx p mask)
  exact ⟨t, hexec, hhigh, hhigh ▸ (serialize_getElem? t p).1⟩

/-- Settles O16: a position above 4 drops, and every store is at a position 0 to 4. -/
theorem wdigBeyondPositionFourIsANoOp : Obligations.WdigBeyondPositionFourIsANoOp := fun s pos idx =>
  ⟨fun hpos => exec_wdig_of_drop (.inl hpos), writeDigit pos idx s, exec_eq_effect (.wdig pos idx) s,
    fun _ hq => readBuf_writeDigit_unused hq pos idx s⟩

/-- Settles O17: each variant's table ends at its bound, and its last entry is stored like any other. -/
theorem wdigIndexBoundIsTheTableSize : Obligations.WdigIndexBoundIsTheTableSize := by
  intro s pos idx
  refine ⟨fun hv hidx => ?_, fun hv hidx => ?_, fun hv => ?_, fun hv => ?_⟩
  · exact exec_wdig_of_drop (.inr (by rwa [hv]))
  · exact exec_wdig_of_drop (.inr (by rwa [hv]))
  · obtain ⟨t, hexec, hword, -, -⟩ := wdigStoresTheEntryOfItsOwnTable.1 s 4 27 hv (by decide) (by decide)
    exact ⟨t, hexec, hword⟩
  · obtain ⟨t, hexec, hword, -, -⟩ := wdigStoresTheEntryOfItsOwnTable.2 s 4 32 hv (by decide)
    exact ⟨t, hexec, hword⟩

/-- Settles O18: below the bound the separator's word is the index, which fits it. -/
theorem wdigClockSeparatorStoresTheIndex : Obligations.WdigClockSeparatorStoresTheIndex := by
  intro s v hv
  refine ⟨fun hlt => ?_, fun hge => exec_wdig_of_drop (.inr (by rwa [hv]))⟩
  obtain ⟨mask, hm⟩ := exists_entry_of_lt (c := s.config) (idx := v) (by rwa [hv])
  obtain ⟨t, hexec, hword, hothers, hframe⟩ := exec_stores (exec_wdig_of_entry (p := 2) (by decide) hm)
  rw [digitWord_separator ⟨hv, rfl⟩] at hword
  exact ⟨t, hexec, hword, hword ▸ toNat_ofNat_of_fits (by omega), hothers, hframe⟩

/-- Settles O19: in GENERAL the separator is one of the encoded positions. -/
theorem wdigGeneralSeparatorStoresTheGlyph : Obligations.WdigGeneralSeparatorStoresTheGlyph :=
  fun s idx hv => wdigStoresTheEntryOfItsOwnTable.2 s 2 idx hv (by decide)

/-! ### When WRAW drops, and what it stores (41_buffer.md R96-R99) -/

theorem exec_wraw_of_drop {pos value : Nat} (h : 4 < pos ∨ 0xFFFF < value) (s : State) :
    exec (.wraw pos value) s = .next s := by
  refine exec_eq_next.mpr ?_
  obtain ⟨p, v, hp, hv, -⟩ | ⟨-, hdrop⟩ := writeRaw_cases pos value s
  · obtain hpos | hvalue := h
    · cases (writablePos_of_gt hpos).symm.trans hp
    · cases (rawWord_of_gt hvalue).symm.trans hv
  · exact hdrop.symm

theorem exec_wraw_of_fits {p : Fin 8} (hp : p.val ≤ 4) {value : Nat} (hvalue : value ≤ 0xFFFF) (s : State) :
    exec (.wraw p value) s = .next (writeBuf p (BitVec.ofNat 16 value) s) := by
  have hexec := exec_wraw_of_le hp (BitVec.ofNat 16 value) s
  rwa [toNat_ofNat_of_fits hvalue] at hexec

theorem readBuf_writeRaw_unused {q : Fin 8} (hq : 5 ≤ q.val) (pos value : Nat) (s : State) :
    readBuf (writeRaw pos value s) q = readBuf s q := by
  obtain ⟨p, v, hp, -, h⟩ | ⟨-, h⟩ := writeRaw_cases pos value s
  · rw [h, readBuf_writeBuf_unused hp hq]
  · rw [h]

/-- Settles O23: the first failing check drops, and with neither failing the value is stored. -/
theorem wrawFollowsItsPseudocode : Obligations.WrawFollowsItsPseudocode := by
  refine ⟨fun _ _ => decode_wraw_word, fun s pos value => ⟨fun hpos => exec_wraw_of_drop (.inl hpos) s,
    fun hvalue => exec_wraw_of_drop (.inr hvalue) s, fun hpos hvalue => ?_⟩⟩
  obtain ⟨p, rfl⟩ : ∃ p : Fin 8, p.val = pos := ⟨⟨pos, by omega⟩, rfl⟩
  obtain ⟨t, hexec, hword, hothers, hframe⟩ := exec_stores (exec_wraw_of_fits hpos hvalue s)
  exact ⟨t, hexec, fun q hq => Fin.ext hq ▸ hword, fun q hq => hothers q (fun h => hq (congrArg Fin.val h)), hframe⟩

/-- Settles O24: a position above 4 drops, and every store is at a position 0 to 4. -/
theorem wrawBeyondPositionFourIsANoOp : Obligations.WrawBeyondPositionFourIsANoOp := fun s pos value =>
  ⟨fun hpos => exec_wraw_of_drop (.inl hpos) s, writeRaw pos value s, exec_eq_effect (.wraw pos value) s,
    fun _ hq => readBuf_writeRaw_unused hq pos value s⟩

/-- Settles O25: a value that does not fit 16 bits is dropped, and one that fits is its word's own value. -/
theorem wrawNeverTruncates : Obligations.WrawNeverTruncates := by
  refine fun s pos value => ⟨fun hvalue => exec_wraw_of_drop (.inr hvalue) s, ?_⟩
  rintro hvalue p rfl hp
  have hfits : value ≤ 0xFFFF := Nat.le_of_lt_succ hvalue
  refine ⟨_, exec_wraw_of_fits hp hfits s, ?_⟩
  rw [readBuf_writeBuf_same, toNat_ofNat_of_fits hfits]

/-- Settles O26: WRAW reads no parameter, so its store is the same in both variants. -/
theorem wrawAcceptsDigitPositionsInBothVariants : Obligations.WrawAcceptsDigitPositionsInBothVariants :=
  fun s _ _ value _ hp => ⟨_, exec_wraw_of_le hp value s, readBuf_writeBuf_same ..⟩

/-! ### Drops (41_buffer.md R101) -/

/-- Settles O28: one failing check is enough to drop, whatever the other says. -/
theorem droppedBufferCommandLeavesTheStateUnchanged : Obligations.DroppedBufferCommandLeavesTheStateUnchanged := by
  intro s pos x
  rw [← glyphCount_eq_ite]
  exact ⟨exec_wdig_of_drop, fun h => exec_wraw_of_drop h s⟩

end Sys2Proof.Machine

namespace Sys2Proof

/-! ## The words of BRIGHT and BLINK (42_protocol.md R116, R120) -/

/-- The word of a command that uses `ARG` alone, with `POS` left out (30_encoding.md R73). -/
theorem word_of_arg_eq_assemble (op : Opcode) (arg : BitVec 32) :
    (op.code.setWidth 64 <<< 56) ||| arg.setWidth 64 = assemble op 0 arg := by
  simp [assemble]

theorem decode_word_of_arg {op : Opcode} {arg : BitVec 32} {i : Instr}
    (h : decodeOperands op (assemble op 0 arg) = .ok i) :
    decode ((op.code.setWidth 64 <<< 56) ||| arg.setWidth 64) = .ok i := by
  rw [word_of_arg_eq_assemble]
  exact (decode_eq_ok_iff ..).mpr ⟨op, hasHeader_assemble .., h⟩

theorem decode_bright_word (arg : BitVec 32) :
    decode ((0x05#64 <<< 56) ||| arg.setWidth 64) = .ok (.bright arg.toInt) := by
  refine decode_word_of_arg (op := .bright) ((withArgOnly_eq_ok_iff ..).mpr ⟨posField_assemble .., ?_⟩)
  rw [argSigned, argField_assemble]

theorem decode_blink_word (rate : BitVec 32) :
    decode ((0x06#64 <<< 56) ||| rate.setWidth 64) = .ok (.blink rate.toNat) := by
  refine decode_word_of_arg (op := .blink) ((withArgOnly_eq_ok_iff ..).mpr ⟨posField_assemble .., ?_⟩)
  rw [argUnsigned, argField_assemble]

end Sys2Proof

namespace Sys2Proof.Machine

/-! ## The protocol commands (42_protocol.md R110-R129)

FLUSH, BRIGHT and BLINK are each one reported write; SETUP is the oscillator-on write and then, if that answered
`ok`, one reported write. -/

/-- Settles O33: a write takes the answer that comes next, whichever it is, and logs it with the frame. -/
theorem txWriteLogsTheFrameWithEitherAnswer : Obligations.TxWriteLogsTheFrameWithEitherAnswer :=
  fun s frame => ⟨sent_txWrite frame s, txWrite_status frame s, fun _ => ⟨rfl, rfl⟩⟩

theorem transferStatus_eq_ite (a : Answer) : transferStatus a = if a = .ok then .ok else .xferFail := by
  cases a <;> rfl

/-- A command that is one reported write sends its frame, reports the answer, and keeps BUF and the parameters. -/
theorem exec_sends {i : Instr} {s : State} {f : Frame} (h : effect i s = sendAndReport f s) :
    ∃ t, exec i s = .next t ∧ Sent s t [⟨f, txAnswer s⟩] ∧
      t.status = (if txAnswer s = .ok then .ok else .xferFail) :=
  ⟨sendAndReport f s, exec_eq_next.mpr h.symm, sent_sendAndReport f s, transferStatus_eq_ite (txAnswer s)⟩

/-- The frame of a reported write shows in TXLOG. -/
theorem frame_eq_of_sendAndReport_eq {f g : Frame} {s : State} (h : sendAndReport f s = sendAndReport g s) : f = g := by
  simpa using congrArg State.txlog h

/-! ### SETUP (42_protocol.md R112-R115) -/

theorem effect_setup_sends_of_fail {s : State} (ha : txAnswer s = .fail) :
    Sent s (effect .setup s) [⟨[oscillatorByte], .fail⟩] ∧ (effect .setup s).status = .initFail := by
  rw [effect_setup_of_fail ha]
  exact ⟨ha ▸ (sent_txWrite ..).setStatus _, rfl⟩

/-- The answer `b` is the one to the data frame, sent from the state the oscillator-on write leaves. -/
theorem effect_setup_sends_of_ok {s : State} {b : Answer} (ha : txAnswer s = .ok)
    (hb : txAnswer (txWrite [oscillatorByte] s).2 = b) :
    Sent s (effect .setup s) [⟨[oscillatorByte], .ok⟩, ⟨serialize s.buf, b⟩] ∧
      (effect .setup s).status = transferStatus b := by
  subst hb
  rw [effect_setup_of_ok ha]
  exact ⟨ha ▸ (sent_txWrite ..).trans (sent_sendAndReport ..), rfl⟩

/-- Settles O34, by the answer to the oscillator-on write. -/
theorem setupSendsOscillatorOnThenFlushes : Obligations.SetupSendsOscillatorOnThenFlushes := by
  refine ⟨by decide, fun s => ⟨effect .setup s, exec_eq_effect .setup s, effect_setup_sends_of_fail, fun ha => ?_⟩⟩
  obtain ⟨hsent, hstatus⟩ := effect_setup_sends_of_ok ha rfl
  exact ⟨_, rfl, hsent, hstatus.trans (transferStatus_eq_ite _)⟩

/-- Settles O35: each list of answers fixes the answers to SETUP's writes, and every command goes on from any state. -/
theorem setupReportsEachOutcome : Obligations.SetupReportsEachOutcome := by
  intro s rest
  refine ⟨?_, ?_, ?_⟩
  · obtain ⟨hsent, hstatus⟩ := effect_setup_sends_of_fail (s := { s with answers := .fail :: rest }) rfl
    exact ⟨_, exec_eq_effect .., hstatus, hsent.txlog, fun i => ⟨_, exec_eq_effect i _⟩⟩
  · obtain ⟨hsent, hstatus⟩ := effect_setup_sends_of_ok (s := { s with answers := .ok :: .ok :: rest }) rfl rfl
    exact ⟨_, exec_eq_effect .., hstatus, hsent.txlog⟩
  · obtain ⟨hsent, hstatus⟩ := effect_setup_sends_of_ok (s := { s with answers := .ok :: .fail :: rest }) rfl rfl
    exact ⟨_, exec_eq_effect .., hstatus, hsent.txlog⟩

/-! ### BRIGHT (42_protocol.md R116-R119) -/

theorem clampLevel_of_gt {level : Int} (h : 15 < level) : clampLevel level = 15 := by
  rw [clampLevel, if_neg (by omega), if_pos h]

theorem clampLevel_of_neg {level : Int} (h : level < 0) : clampLevel level = 0 := if_pos h

theorem clampLevel_of_le {l : Nat} (h : l ≤ 15) : clampLevel l = l := by
  rw [clampLevel, if_neg (by omega), if_neg (by omega), Int.toNat_natCast]

theorem exec_bright_congr {level level' : Int} (h : clampLevel level = clampLevel level') (s : State) :
    exec (.bright level) s = exec (.bright level') s := by
  simp only [exec, execBright, h]

theorem brightByte_fields :
    ∀ L : Fin 16, bitField (brightByte L) 4 4 = 0b1110 ∧ (bitField (brightByte L) 0 4).toNat = L.val := by decide

/-- Settles O36: BRIGHT is one reported write of the clamped level's byte. -/
theorem brightFollowsItsPseudocode : Obligations.BrightFollowsItsPseudocode := by
  refine ⟨decode_bright_word, fun s level => ?_⟩
  obtain ⟨t, hexec, hsent, hstatus⟩ := exec_sends (i := .bright level) (s := s) rfl
  exact ⟨t, clampLevel level, hexec, rfl, hsent, hstatus⟩

/-- Settles O37: two levels with the same clamped level have the same outcome. -/
theorem brightClampsTheLevel : Obligations.BrightClampsTheLevel := fun s level =>
  ⟨fun h => exec_bright_congr (clampLevel_of_gt h) s, fun h => exec_bright_congr (clampLevel_of_neg h) s,
    effect (.bright level) s, exec_eq_effect ..⟩

/-- Settles O38: a level in range is its own clamped level. -/
theorem brightFrameCarriesTheLevel : Obligations.BrightFrameCarriesTheLevel := by
  intro s L
  obtain ⟨t, hexec, hsent, -⟩ := exec_sends (i := .bright L.val) (s := s) rfl
  obtain ⟨hhigh, hlow⟩ := brightByte_fields L
  have hlog := hsent.txlog
  rw [clampLevel_of_le (Nat.le_of_lt_succ L.isLt)] at hlog
  exact ⟨t, brightByte L, hexec, hlog, rfl, hhigh, hlow⟩

/-! ### BLINK (42_protocol.md R120-R123) -/

theorem blinkField_of_gt {rate : Nat} (h : 3 < rate) : blinkField rate = 0 := if_neg (Nat.not_le.mpr h)

theorem exec_blink_congr {rate rate' : Nat} (h : blinkField rate = blinkField rate') (s : State) :
    exec (.blink rate) s = exec (.blink rate') s := by
  simp only [exec, execBlink, h]

/-- Settles O39: BLINK is one reported write of the blink field's byte. -/
theorem blinkFollowsItsPseudocode : Obligations.BlinkFollowsItsPseudocode := by
  refine ⟨decode_blink_word, fun s rate => ?_⟩
  obtain ⟨t, hexec, hsent, hstatus⟩ := exec_sends (i := .blink rate) (s := s) rfl
  exact ⟨t, blinkField rate, hexec, rfl, hsent, hstatus⟩

/-- BLINK 0 and BLINK 3 send different bytes. -/
theorem exec_blink_zero_ne_three (s : State) : exec (.blink 0) s ≠ exec (.blink 3) s := by
  intro h
  have hframe := frame_eq_of_sendAndReport_eq (exec_eq_next.mp h)
  revert hframe
  decide

/-- Settles O40: a rate above 3 has the blink field 0. -/
theorem blinkTreatsAnyOtherRateAsZero : Obligations.BlinkTreatsAnyOtherRateAsZero := by
  intro s rate hrate
  have hzero : exec (.blink rate) s = exec (.blink 0) s := exec_blink_congr (blinkField_of_gt hrate) s
  exact ⟨hzero, hzero ▸ exec_blink_zero_ne_three s, effect (.blink rate) s, exec_eq_effect ..⟩

theorem exec_blink_logs (rate : Nat) (s : State) :
    ∃ t, exec (.blink rate) s = .next t ∧ t.txlog = s.txlog ++ [⟨[blinkByte (blinkField rate)], txAnswer s⟩] :=
  ⟨_, exec_eq_effect .., rfl⟩

/-- Settles O41: the logged byte of each of the four rates, evaluated. -/
theorem blinkBytesAreTheFourOfTheTable : Obligations.BlinkBytesAreTheFourOfTheTable :=
  fun s => ⟨exec_blink_logs 0 s, exec_blink_logs 1 s, exec_blink_logs 2 s, exec_blink_logs 3 s⟩

/-! ### FLUSH, and the three one-write commands together (42_protocol.md R119, R123-R126) -/

/-- Settles O42: FLUSH is one reported write of the data frame. -/
theorem flushSendsTheWholeBufferOnce : Obligations.FlushSendsTheWholeBufferOnce := by
  refine ⟨by decide, fun s => ?_⟩
  obtain ⟨t, hexec, hsent, hstatus⟩ := exec_sends (i := .flush) (s := s) rfl
  exact ⟨t, hexec, hsent, serialize_length s.buf, hstatus⟩

/-- Settles O43: each of the three is one reported write, which takes the answer that comes next. -/
theorem oneWriteCommandsReportEitherAnswer : Obligations.OneWriteCommandsReportEitherAnswer := by
  intro s a rest i hi
  obtain ⟨frame, hsend⟩ := effect_eq_sendAndReport hi s.buf
  refine ⟨_, frame, exec_eq_next.mpr (hsend { s with answers := a :: rest } rfl).symm, rfl, ?_, rfl, rfl⟩
  cases a <;> rfl

/-! ### How many writes a command issues (42_protocol.md R127) -/

/-- Settles O45: the entries each command adds to TXLOG, counted. -/
theorem writesPerCommand : Obligations.WritesPerCommand := by
  intro i s
  cases i with
  | clear | wdig | wraw =>
    refine ⟨_, [], exec_eq_effect .., ?_, fun _ => rfl, nofun, nofun⟩
    rw [(onlyBufDiffers_effect rfl s).txlog, List.append_nil]
  | setup =>
    cases ha : txAnswer s with
    | ok =>
      obtain ⟨hsent, -⟩ := effect_setup_sends_of_ok ha rfl
      exact ⟨_, _, exec_eq_effect .., hsent.txlog, nofun, fun _ => rfl, fun _ h => absurd rfl h⟩
    | fail =>
      obtain ⟨hsent, -⟩ := effect_setup_sends_of_fail ha
      exact ⟨_, _, exec_eq_effect .., hsent.txlog, nofun, fun _ => rfl, fun _ h => absurd rfl h⟩
  | bright | blink | flush =>
    exact ⟨_, _, exec_eq_effect .., (sent_sendAndReport ..).txlog, nofun, nofun, fun _ _ => rfl⟩

/-! ### Neither STATUS nor TXLOG influences a command (42_protocol.md R128, R129; 10_state.md R31) -/

theorem OnlyBufDiffers.eq_with_buf {s t : State} (h : OnlyBufDiffers s t) : t = { s with buf := t.buf } := by
  cases s
  cases t
  simp only [State.mk.injEq]
  exact ⟨trivial, h.status, h.txlog, h.config, h.host, h.answers, h.draws⟩

/-- From every state with the same BUF and parameters a buffer command leaves the same BUF, and the rest of that
state as it was. -/
theorem exists_effect_eq_with_buf {i : Instr} (hi : isBufferCommand i = true) (s : State) :
    ∃ buf, ∀ s' : State, s'.buf = s.buf → s'.config = s.config → effect i s' = { s' with buf := buf } := by
  refine ⟨(effect i s).buf, fun s' hbuf hconfig => ?_⟩
  rw [← effect_buf_congr hbuf hconfig i]
  exact (onlyBufDiffers_effect hi s').eq_with_buf

/-- A protocol command overwrites STATUS and does not read it. -/
theorem effect_protocol_setStatus {i : Instr} (hi : isBufferCommand i = false) (v : Status) (s : State) :
    effect i (setStatus v s) = effect i s := by
  cases i with
  | clear | wdig | wraw => cases hi
  | setup =>
    have hfirst : txAnswer (setStatus v s) = txAnswer s := txAnswer_congr rfl rfl
    cases ha : txAnswer s with
    | ok => rw [effect_setup_of_ok ha, effect_setup_of_ok (hfirst.trans ha)]; rfl
    | fail => rw [effect_setup_of_fail ha, effect_setup_of_fail (hfirst.trans ha)]; rfl
  | bright | blink | flush => rfl

/-- Settles O46: a buffer command carries the STATUS it finds along, and a protocol command overwrites it. -/
theorem statusNeverInfluencesACommand : Obligations.StatusNeverInfluencesACommand := by
  intro i s v
  refine ⟨effect i s, exec_eq_effect i s, exec_eq_next.mpr ?_⟩
  cases hi : isBufferCommand i with
  | false => exact (effect_protocol_setStatus hi v s).symm
  | true =>
    obtain ⟨buf, heffect⟩ := exists_effect_eq_with_buf hi s
    rw [heffect s rfl rfl, heffect { s with status := v } rfl rfl]
    rfl

theorem effect_with_txlog_of_bufferCommand {i : Instr} (hi : isBufferCommand i = true) (s : State)
    (log : List TxRecord) : effect i { s with txlog := log } = { effect i s with txlog := log ++ [] } := by
  obtain ⟨buf, heffect⟩ := exists_effect_eq_with_buf hi s
  rw [heffect s rfl rfl, heffect { s with txlog := log } rfl rfl, List.append_nil]

theorem txWrite_with_txlog (f : Frame) (s : State) (log : List TxRecord) :
    (txWrite f { s with txlog := log }).2 = { (txWrite f s).2 with txlog := log ++ [⟨f, txAnswer s⟩] } := rfl

theorem sendAndReport_with_txlog (f : Frame) (s : State) (log : List TxRecord) :
    sendAndReport f { s with txlog := log } =
      { sendAndReport f s with txlog := log ++ [⟨f, txAnswer s⟩] } := rfl

/-- A command leaves the same state whatever TXLOG held, but for TXLOG itself, to which it adds the same entries. -/
theorem effect_with_txlog (i : Instr) (s : State) :
    ∃ new, ∀ log, effect i { s with txlog := log } = { effect i s with txlog := log ++ new } := by
  cases i with
  | clear | wdig | wraw => exact ⟨[], effect_with_txlog_of_bufferCommand rfl s⟩
  | setup =>
    have hfirst (log : List TxRecord) : txAnswer { s with txlog := log } = txAnswer s := txAnswer_congr rfl rfl
    cases ha : txAnswer s with
    | ok =>
      refine ⟨[⟨[oscillatorByte], txAnswer s⟩] ++ [⟨dataframe s.buf, txAnswer (txWrite [oscillatorByte] s).2⟩],
        fun log => ?_⟩
      rw [effect_setup_of_ok ha, effect_setup_of_ok ((hfirst log).trans ha), txWrite_with_txlog,
        sendAndReport_with_txlog, List.append_assoc]
    | fail =>
      refine ⟨[⟨[oscillatorByte], txAnswer s⟩], fun log => ?_⟩
      rw [effect_setup_of_fail ha, effect_setup_of_fail ((hfirst log).trans ha), txWrite_with_txlog]
      rfl
  | bright | blink => exact ⟨_, sendAndReport_with_txlog _ s⟩
  | flush => exact ⟨_, sendAndReport_with_txlog (dataframe s.buf) s⟩

/-- Settles O47: the entries a command adds to any log are those it adds to its own. -/
theorem theLogNeverInfluencesACommand : Obligations.TheLogNeverInfluencesACommand := by
  intro i s
  obtain ⟨new, hlog⟩ := effect_with_txlog i s
  exact ⟨effect i s, new, exec_eq_effect i s, congrArg State.txlog (hlog s.txlog),
    fun log => exec_eq_next.mpr (hlog log).symm⟩

end Sys2Proof.Machine

namespace Sys2Proof.Machine

/-! ## No stop while the host keeps its duties (60_exceptions.md R140, R147, R155)

Two halves: a step goes on where the host's next input keeps its duties, and every step that goes on keeps both the
duties and the invariant. A run repeats the two. -/

/-- Settles O48: every command leaves the state its effect names. -/
theorem everyCommandCompletesInEveryState : Obligations.EveryCommandCompletesInEveryState :=
  fun i s => ⟨effect i s, exec_eq_effect i s⟩

/-- Settles O7: the step with no input to take is the idle step. -/
theorem nothingHappensWithoutAHostInput : Obligations.NothingHappensWithoutAHostInput :=
  fun _ => step_of_nil

/-! ### What the duties say of each input -/

theorem exists_decode_of_inputOk {c : BlockConfig} {w : CmdWord} (h : inputOk c (.command w) = true) :
    ∃ i, decode w = .ok i := by
  cases hd : decode w with
  | ok i => exact ⟨i, rfl⟩
  | error why => simp [inputOk, hd, Except.isOk, Except.toBool] at h

theorem exists_entry_of_inputOk {c : BlockConfig} {i : Nat} (h : inputOk c (.lookup i) = true) :
    ∃ mask, encodeGlyph c i = some mask :=
  Option.isSome_iff_exists.mp h

theorem hostDuties_iff (s : State) :
    hostDuties s = true ↔ ∀ input ∈ s.host, inputOk s.config input = true :=
  List.all_eq_true

/-! ### A step goes on -/

/-- No step stops where the host keeps its duties: a word that decodes is executed, and a lookup in range is
answered. -/
theorem exists_step_of_hostDuties {s : State} (hd : hostDuties s = true) : ∃ t, step s = .next t := by
  rw [hostDuties_iff] at hd
  cases hh : s.host with
  | nil => exact ⟨s, step_of_nil hh⟩
  | cons input rest =>
    have hok : inputOk s.config input = true := hd input (by simp [hh])
    cases input with
    | command w =>
      obtain ⟨i, hi⟩ := exists_decode_of_inputOk hok
      exact ⟨_, step_of_command hh hi⟩
    | reset => exact ⟨_, step_of_reset hh⟩
    | lookup i =>
      obtain ⟨mask, hm⟩ := exists_entry_of_inputOk hok
      obtain ⟨-, hstep⟩ := lookup_of_entry hh hm
      exact ⟨_, hstep⟩

/-! ### What every step that goes on keeps -/

/-- A step takes the host's next input and leaves the others. -/
theorem step_host {s t : State} (h : step s = .next t) : t.host = s.host.tail := by
  obtain ⟨hh, rfl⟩ | ⟨w, i, rest, hh, -, rfl⟩ | ⟨rest, hh, rfl⟩ | ⟨i, rest, hh, -, rfl⟩ := step_cases h
  · rw [hh, List.tail_nil]
  · rw [effect_host, setHost_host, hh, List.tail_cons]
  · rw [hostReset_host, setHost_host, hh, List.tail_cons]
  · rw [setHost_host, hh, List.tail_cons]

/-- The inputs left were among the inputs before, and the bound of a lookup lies in the parameters, which stay. -/
theorem hostDuties_step {s t : State} (hd : hostDuties s = true) (h : step s = .next t) : hostDuties t = true := by
  rw [hostDuties_iff] at hd ⊢
  rw [step_host h, noStepWritesTheGlyphRom s t h]
  exact fun input hmem => hd input (List.mem_of_mem_tail hmem)

/-- Every frame TXLOG holds after a step is an old one or one the step sent. -/
theorem frames_legal_step {s t : State} (hs : Inv s) (h : step s = .next t) :
    ∀ r ∈ t.txlog, legalFrame r.frame = true := by
  intro r hr
  obtain ⟨hsent, -⟩ := onlyLegalFramesAreSent
  exact (hsent s t hs.unused h r hr).elim (hs.frames r) id

theorem inv_step {s t : State} (hs : Inv s) (h : step s = .next t) : Inv t where
  unused := unusedZero_step hs.unused h
  reports := statusReportsTheLogInEveryStep s t hs.reports h
  frames := frames_legal_step hs h
  config := by rw [noStepWritesTheGlyphRom s t h]; exact hs.config

/-! ### Runs -/

/-- Where from every state with `P` a step goes on to a state with `P`, so does a run of any length: by induction on
the length. -/
theorem run_keeps {P : State → Prop} (hstep : ∀ s, P s → ∃ t, step s = .next t ∧ P t) (n : Nat) {s : State}
    (hs : P s) : ∃ t, core.run n s = .next t ∧ P t := by
  induction n generalizing s with
  | zero => exact ⟨s, rfl, hs⟩
  | succ n ih =>
    obtain ⟨u, hu, hPu⟩ := hstep s hs
    rw [run_succ_of_next hu]
    exact ih hPu

/-- Settles O55: the duties let each step go on, and the step keeps them and the invariant for the next one. -/
theorem aHostKeepingItsDutiesNeverMeetsAStop : Obligations.AHostKeepingItsDutiesNeverMeetsAStop := by
  intro n s hduties hinv
  refine run_keeps (P := fun u => hostDuties u = true ∧ Inv u) ?_ n ⟨hduties, hinv⟩
  rintro u ⟨hd, hi⟩
  obtain ⟨t, ht⟩ := exists_step_of_hostDuties hd
  exact ⟨t, ht, hostDuties_step hd ht, inv_step hi ht⟩

end Sys2Proof.Machine

namespace Sys2Proof.Machine

/-! ## The host's reset between two commands (70_reset_and_hazards.md R160, R161) -/

/-- Settles O8: the step takes the reset from the host's inputs and leaves `hostReset`'s fields, and a command
completes there as in any state. -/
theorem hostResetRestoresTheResetValues : Obligations.HostResetRestoresTheResetValues := by
  intro s rest hh
  refine ⟨_, step_of_reset hh, ?_⟩
  exact ⟨fun p => readBuf_hostReset p _, hostReset_status _, hostReset_txlog _, hostReset_config _,
    hostReset_host _, hostReset_answers _, hostReset_draws _, fun i => everyCommandCompletesInEveryState i _⟩

end Sys2Proof.Machine
